-- ==== Sys2Proof/Word.lean ====
section
/-! DEFINITION. The word types of the Valgrep 2418 and the one arithmetic operation every block shares. -/

namespace Sys2Proof

/-- A byte of a request record, a frame or the configuration image (R164, R179, R181). -/
abbrev Byte := BitVec 8

/-- Bytes in the order in which they stand on the wire. -/
abbrev Bytes := List Byte

/-- A 32-bit university account number (00_scope.md, 3). It is compared bit by bit with the decode
windows (R1), so it is a bit vector. -/
abbrev OwnerId := BitVec 32

/-- 4,294,967,295: the value at which block counts saturate, and NONE when written as a limit
(00_scope.md, 4 Numbers, "Block counts and NONE"). -/
abbrev maxCount : Nat := 4294967295

/-- A sum of block counts saturates at 4,294,967,295 (00_scope.md, 4). -/
def satAdd (a b : Nat) : Nat := min (a + b) maxCount

end Sys2Proof
end

