-- ==== Sys2Proof/Syntax.lean ====
section
/-! DEFINITION. The commands of the part: one constructor for each row of spec/opcode_table.json. -/

namespace Sys2Proof

/-- A command. A row that is a request carries no operands here: it takes the record at the head of the
request queue, whose bytes hold its fields (R166, R179; log 1). A row that acts on one of several
contexts, volumes, slots, owners or stations names it. -/
inductive Instr where
  /-- POWER_ON_RESET (R180): RST is released; the straps are sampled. -/
  | powerOnReset (station : Fin 16) (maint : Bool)
  /-- CONFIG_CHECK (R181): the image read ends; the operand is what the memory holds. -/
  | configCheck (image : List (BitVec 8))
  /-- STATUS (R163): a transaction with the STATUS or an unknown command; the operand is the number of
  bytes clocked after the status byte. -/
  | status (further : Nat)
  /-- WRITE (R164): the operand is the bytes shifted in after the command. -/
  | write (bytes : List (BitVec 8))
  /-- READ (R165): the operand is the number of bytes clocked after the status byte. -/
  | read (clocked : Nat)
  /-- RESERVE (R33), the request at the head of the request queue. -/
  | reserve
  /-- RENEW (R35). -/
  | renew
  /-- CANCEL (R36). -/
  | cancel
  /-- COMMIT (R37). -/
  | commit
  /-- RELEASE (R41). -/
  | release
  /-- SNAPSHOT (R73, R74). -/
  | snapshot
  /-- DELETE_SNAPSHOT (R79). -/
  | deleteSnapshot
  /-- EXPIRY_WAITING_EVALUATION (R83). -/
  | expiryWaitingEvaluation
  /-- HOLD (R92). -/
  | hold
  /-- PIN (R93). -/
  | pin
  /-- LOCK_HOLDS (R101). -/
  | lockHolds
  /-- RESTORE_OPEN (R106). -/
  | restoreOpen
  /-- RESTORE_ITEM (R108). -/
  | restoreItem
  /-- RESTORE_GO (R112). -/
  | restoreGo
  /-- RESTORE_CANCEL (R119). -/
  | restoreCancel
  /-- COPIED (R116). -/
  | copied
  /-- COPY_NOTICE (R115). -/
  | copyNotice
  /-- ASSEMBLY_DEADLINE (R111) of one restore context. -/
  | assemblyDeadline (context : Fin 4)
  /-- ASSEMBLY_TIMEOUT (R111) of one restore context. -/
  | assemblyTimeout (context : Fin 4)
  /-- RESTORE_END_STEP (R120) of one restore context. -/
  | restoreEndStep (context : Fin 4)
  /-- SENT (R151). -/
  | sent
  /-- DUPLICATE_NOW (R154). -/
  | duplicateNow
  /-- CLOCK (R140). -/
  | clock
  /-- MINUTE_ADVANCE (R140). -/
  | minuteAdvance
  /-- WINDOW_CLOSED (R143). -/
  | windowClosed
  /-- CUT_NOTICE (R145). -/
  | cutNotice
  /-- CUT_TIMEOUT (R147) of the volume in one slot. -/
  | cutTimeout (slot : Fin 8)
  /-- ISSUE_PASS (R149). -/
  | issuePass
  /-- TOKEN_GAIN (R157). -/
  | tokenGain
  /-- DEFERRAL_DEADLINE (R160). -/
  | deferralDeadline
  /-- DUP_END_STEP (R153) of the volume in one slot. -/
  | dupEndStep (slot : Fin 8)
  /-- FORGET_STATION (R64). -/
  | forgetStation
  /-- FORGET_SWEEP_VISIT (R65). -/
  | forgetSweepVisit
  /-- FORGET_SWEEP_END (R66). -/
  | forgetSweepEnd
  /-- INSPECT (R170). -/
  | inspect
  /-- AMEND (R172). -/
  | amend
  /-- EVENTS (R176). -/
  | events
  /-- EVENT_PENDING_NOTICE (R175). -/
  | eventPendingNotice
  /-- RESTART (R177). -/
  | restart
  /-- LOAD_VOLUME (R184). -/
  | loadVolume
  /-- LOAD_SNAPSHOT (R185). -/
  | loadSnapshot
  /-- LOAD_OWNER (R186). -/
  | loadOwner
  /-- LOAD_DONE (R187). -/
  | loadDone
  /-- LEASE_EXPIRY (R28) of the entry in one slot of the reservation table. -/
  | leaseExpiry (slot : Nat)
  /-- WARM_UP_END (R7) of one owner record. -/
  | warmUpEnd (owner : BitVec 32)
  /-- GRACE_DEADLINE_EXPIRY (R17) of one owner record. -/
  | graceDeadlineExpiry (owner : BitVec 32)
  /-- ANNOUNCE_TIMER_EXPIRY (R49). -/
  | announceTimerExpiry
  /-- PEER_STALE_DEADLINE (R63) of one peer. -/
  | peerStaleDeadline (station : Fin 16)
  /-- TRANSMIT_ATTEMPT_START (R50). -/
  | transmitAttemptStart
  /-- ATTEMPT_SUCCESS (R50). -/
  | attemptSuccess
  /-- COLLISION (R51). -/
  | collision
  /-- BACKOFF_EXPIRY (R51). -/
  | backoffExpiry
  /-- FRAME_RECEIVED (R58): the operand is the burst's bytes. -/
  | frameReceived (burst : List (BitVec 8))
  /-- RST_ASSERTED (R180). -/
  | rstAsserted
  /-- KIND_NUMBER_OUT_OF_RANGE (R166): the request at the head has a kind number outside 1 to 27. -/
  | kindNumberOutOfRange
  deriving DecidableEq, Repr

end Sys2Proof
end

