-- ==== Sys2Proof/Decode.lean ====
section
/-! DEFINITION. No row of spec/opcode_table.json gives bits, so no word spells a command; the bytes that the
server shifts in over a transaction of the server port do (R163). -/

namespace Sys2Proof

/-- The command that a word of the given number of bits spells: none, because every row of the opcode
table has an empty list of bit fields (98_reader.md: 60 rows, 0 with fixed bits). -/
def decodeTableWord (_nbits _w : Nat) : Option Instr := none

/-- The command of a server port transaction, from the bytes that the server shifts in while chip select is
low (R163): the first byte is the command, 01 WRITE, 02 READ, and any other value STATUS. A transaction
that ends before its first byte is none. -/
def transactionCommand : List (BitVec 8) → Option Instr
  | [] => none
  | command :: bytes =>
    some (if command = 0x01#8 then .write bytes
      else if command = 0x02#8 then .read bytes.length
      else .status bytes.length)

end Sys2Proof
end

