-- ==== Sys2Proof/Machine/Bytes.lean ====
section
/-! DEFINITION. Byte order and the two cyclic redundancy checks (R179, R181). -/

namespace Sys2Proof.Machine

/-- A number sent most significant byte first (R179). -/
def bytesValue (bs : Bytes) : Nat := bs.foldl (fun n b => n * 256 + b.toNat) 0

/-- The field of `width` bytes at an offset of a record, a frame or the image (R179, R181). -/
def fieldAt (bs : Bytes) (offset width : Nat) : Nat := bytesValue ((bs.drop offset).take width)

/-- The low `width` bytes of a number, most significant byte first (R179). -/
def numberBytes : Nat → Nat → Bytes
  | 0, _ => []
  | width + 1, n => BitVec.ofNat 8 (n / 256 ^ width) :: numberBytes width n

/-- Fields given as pairs of width and value, sent in order (R179). -/
def fieldBytes (fields : List (Nat × Nat)) : Bytes :=
  fields.flatMap fun (width, value) => numberBytes width value

/-- One bit of the CRC-16 remainder with generator x^16 + x^12 + x^5 + 1 (R179). -/
def crc16Bit (c : BitVec 16) : BitVec 16 :=
  if c.msb then (c <<< 1) ^^^ 0x1021#16 else c <<< 1

/-- One byte of the CRC-16, most significant bit first (R179). -/
def crc16Byte (c : BitVec 16) (b : Byte) : BitVec 16 :=
  Nat.repeat crc16Bit 8 (c ^^^ (b.zeroExtend 16 <<< 8))

/-- The CRC-16 of a link frame: the remainder register starts at all ones (R179). -/
def crc16 (bs : Bytes) : Nat := (bs.foldl crc16Byte 0xFFFF#16).toNat

/-- One bit of the CRC-32 of the image, in the register that takes each byte least significant bit
first; the generator of R181 stands in it bit-reversed (log 28). -/
def crc32Bit (c : BitVec 32) : BitVec 32 :=
  if c.getLsbD 0 then (c >>> 1) ^^^ 0xEDB88320#32 else c >>> 1

/-- One byte of the CRC-32 (R181). -/
def crc32Byte (c : BitVec 32) (b : Byte) : BitVec 32 :=
  Nat.repeat crc32Bit 8 (c ^^^ b.zeroExtend 32)

/-- The CRC-32 of the image: the register starts at all ones and is inverted at the end (R181). -/
def crc32 (bs : Bytes) : Nat := (~~~ (bs.foldl crc32Byte 0xFFFFFFFF#32)).toNat

end Sys2Proof.Machine
end

