-- ==== Sys2Proof/Config.lean ====
section
/-! DEFINITION. The fixed sizes of the part, and the one free value its manual leaves open. -/

namespace Sys2Proof.Config

/-- Slots of the request queue (R164, R166). -/
abbrev requestSlots : Nat := 64
/-- Slots of the completion queue (R167). -/
abbrev completionSlots : Nat := 64
/-- Free slots of the completion queue that a notice needs (R168). -/
abbrev noticeRoom : Nat := 9
/-- Capacity of the Owner Table (R3). -/
abbrev ownerSlots : Nat := 4096
/-- Capacity of one record's contribution list (R3). -/
abbrev contributionSlots : Nat := 6
/-- Slots of the reservation table (R26). -/
abbrev reservationSlots : Nat := 512
/-- Capacity of the snapshot pool (R71). -/
abbrev snapshotSlots : Nat := 256
/-- Buckets of one retained list (R71). -/
abbrev bucketSlots : Nat := 8
/-- Extent entries of the change list pool (R124). -/
abbrev poolEntries : Nat := 4096
/-- Longest extent of an entry, in blocks (R124). -/
abbrev extentCap : Nat := 65535
/-- Blocks of a scan region (R136). -/
abbrev regionBlocks : Nat := 262144
/-- Pieces of one SEND ticket (R133). -/
abbrev ticketPieces : Nat := 16
/-- The largest token cost of a ticket (R150). -/
abbrev costCap : Nat := 8192
/-- The cap of the token accumulator, in milliblocks (R157). -/
abbrev tokenCap : Nat := 8192000
/-- Entries of one USAGE frame (R20). -/
abbrev usageEntries : Nat := 24
/-- Bytes of the configuration image before its CRC, and with it (R181). -/
abbrev imageFieldBytes : Nat := 291
abbrev imageBytes : Nat := 295

/-- FREE VALUE (log 9). R51 fixes only that the sequence of back-off draws after a seed depends on that
seed alone: the draw is a value nothing constrains, of the seed's station and generation and of the
number of draws made since. -/
opaque backoffDraw (station generation index : Nat) : Nat

end Sys2Proof.Config
end

