-- ==== Sys2Proof/Machine/State.lean ====
section
/-! DEFINITION. The state of the part, block by block, as plain data, and the state right after reset. -/

namespace Sys2Proof.Machine

/-! ### Names the spec gives to states, codes and kinds -/

/-- The part state (chapter 10). -/
inductive PartState | configuring | halted | loading | serving
  deriving DecidableEq, Repr

/-- The link state (chapter 3, 3.1; R48). -/
inductive LinkState | off | listening | active | mute
  deriving DecidableEq, Repr

/-- The state of a transmit slot (3.3). -/
inductive SlotState | empty | waiting | held
  deriving DecidableEq, Repr

/-- The state of a peer entry (R60). -/
inductive PeerState | absent | live | stale | forgetting
  deriving DecidableEq, Repr

/-- A peer's part state, from its last ANNOUNCE (R60). -/
inductive PeerPart | loading | serving
  deriving DecidableEq, Repr

/-- The quota state of an owner (R14), in the order of its codes (R179); aboveHard is the OVER of R14. -/
inductive QuotaState | normal | soft | lapsed | aboveHard
  deriving DecidableEq, Repr

/-- The kind of a snapshot (R71). -/
inductive SnapKind | scheduled | manual | duplication
  deriving DecidableEq, Repr

/-- The hold lock (R100). -/
inductive HoldLock | unfixed | opened | closed
  deriving DecidableEq, Repr

/-- What fixed the hold lock (R103, R187). -/
inductive LockCause | image | strap
  deriving DecidableEq, Repr

/-- The hold-lock-at-start field of the image (R181). -/
inductive LockAtStart | opened | closed
  deriving DecidableEq, Repr

/-- The state of a restore context, FREE included for completions (R104). -/
inductive ContextState | free | assembling | running | draining
  deriving DecidableEq, Repr

/-- The state of a restore item (R104). -/
inductive ItemState | pending | outstanding | copied | failed
  deriving DecidableEq, Repr

/-- Why a job was aborted during assembly (R109, R110). -/
inductive AbortReason | extra | birth | sourceRange | targetRange | order | short
  deriving DecidableEq, Repr

/-- The outcome that a RESTORE_END notice carries (R120, R111). -/
inductive EndOutcome | ok | failed | cancelled | timeout
  deriving DecidableEq, Repr

/-- The night window (R141). -/
inductive WindowState | closed | opened | closing
  deriving DecidableEq, Repr

/-- The duplication state of a volume (R144). -/
inductive DupState | idle | cutPending | sending | stalled | done | carried | missed
  deriving DecidableEq, Repr

/-- The suspension state (R160). -/
inductive Suspension | issuing | deferred | suspended
  deriving DecidableEq, Repr

/-- The fifteen kinds of event, in the order of their numbers (section 9.6). -/
inductive EventKind
  | configBad | leaseExpired | lateCommit | usageUnderflow | viewOverflow | linkError | linkGiveup
  | stationConflict | reserveOver | bucketMerge | listOverflow | cutMissed | volumeStalled | atRisk
  | windowCarried
  deriving DecidableEq, Repr

/-- The status codes of completions, in the order of their codes 0 to 20 (R167). -/
inductive Status
  | ok | soft | untracked | overHard | lapsed | full | noSuch | held | locked | busy | notReady
  | badField | aborted | late | exceeded | reserveFull | notExpected | mismatch | peerLive
  | notInWindow | epochExhausted
  deriving DecidableEq, Repr

/-! ### The configuration image (chapter 10, R181) -/

/-- A class record (1.1). Grace is in minutes, the lease in seconds. -/
structure ClassRec where
  soft : Nat
  hard : Nat
  grace : Nat
  margin : Nat
  threshold : Nat
  lease : Nat
  deriving DecidableEq, Repr

/-- A decode window (R1). -/
structure Window where
  base : BitVec 32
  mask : BitVec 32
  cls : Fin 8
  enable : Bool
  deriving DecidableEq, Repr

/-- A send profile (R161): max ticket blocks, depth, ticket overhead in ms, retry limit. -/
structure Profile where
  maxBlocks : Nat
  depth : Nat
  overhead : Nat
  retryLimit : Nat
  deriving DecidableEq, Repr

/-- The values of an image that passed its check, in the units of the image (R181). -/
structure Image where
  classes : Vector ClassRec 8
  windows : Vector Window 8
  profiles : Vector Profile 4
  /-- U, blocks per second -/
  uplink : Nat
  /-- per mille -/
  minShare : Nat
  stationCap : Nat
  /-- seconds -/
  announceInterval : Nat
  staleMultiple : Nat
  /-- seconds -/
  sweepPeriod : Nat
  /-- seconds -/
  assemblyTimeout : Nat
  /-- seconds -/
  cutTimeout : Nat
  copyDepth : Nat
  /-- seconds -/
  minProgress : Nat
  windowStart : Nat
  windowEnd : Nat
  /-- per mille -/
  scanRatio : Nat
  lockAtStart : LockAtStart
  deriving DecidableEq, Repr

/-- The stage that failed an image check, with the field number of a range failure (R181). -/
inductive CheckFailure
  | crc
  | range (field : Nat)
  deriving DecidableEq, Repr

/-! ### Timebase -/

/-- The Timebase (TMB). -/
structure Timebase where
  /-- milliseconds since the last power-on reset or RESTART, 48 bits (R180) -/
  uptime : Nat
  /-- minute of day, unset or 0 to 1439 (R140) -/
  minute : Option Nat
  /-- uptime of the next minute advance; absent while the minute timer is stopped (R140) -/
  nextAdvance : Option Nat
  /-- the token gain of the present millisecond is still to be made (R157; model's own, log 10) -/
  gainOwed : Bool
  deriving DecidableEq, Repr

/-! ### Server Port -/

/-- One kind's entry of the event summary (R174). -/
structure EventEntry where
  flag : Bool
  count : Nat
  subject : Nat
  deriving DecidableEq, Repr

/-- The result fields of a completion, or the fields of a notice, by the rule that lists them. Every
field defaults to the value sent as 0 where the rule does not give it (R179; log 19). -/
inductive Body
  /-- no fields: a kind number out of range (R166) -/
  | none
  /-- R33 -/
  | reserve (handle : Nat := 0) (lease : Option Nat := .none) (view : Nat := 0) (soft : Nat := 0)
      (hard : Nat := 0) (quota : QuotaState := .normal)
  /-- R35 -/
  | renew (lease : Option Nat := .none)
  /-- R36 -/
  | cancel (returned : Nat := 0)
  /-- R38, R39 -/
  | commit (charged : Nat := 0) (used : Nat := 0) (quota : QuotaState := .normal)
  /-- R41 -/
  | release (used : Nat := 0) (freed : Nat := 0) (retained : Nat := 0)
  /-- R74 -/
  | snapshot (epoch : Nat := 0)
  /-- R79, R99 -/
  | deleteSnapshot (freed : Nat := 0) (moved : Nat := 0) (receiver : Nat := 0) (hold : Bool := false)
      (pin : Bool := false) (refs : Nat := 0) (contexts : Nat := 0) (send : Bool := false)
      (base : Bool := false)
  /-- R92, R93 -/
  | marks (hold : Bool := false) (pin : Bool := false) (refs : Nat := 0) (deletable : Bool := false)
  /-- R101 -/
  | lockHolds (lock : HoldLock := .unfixed) (closedNow : Bool := false)
  /-- R106 -/
  | restoreOpen (context : Nat := 0) (job : Nat := 0) (deadline : Option Nat := .none)
  /-- R108, R110 -/
  | restoreItem (index : Nat := 0) (received : Nat := 0) (reason : AbortReason := .extra)
      (wouldBe : Nat := 0) (heldItems : Nat := 0)
  /-- R113, R110 -/
  | restoreGo (n : Nat := 0) (view : Nat := 0) (soft : Nat := 0) (hard : Nat := 0)
      (quota : QuotaState := .normal) (reason : AbortReason := .extra) (wouldBe : Nat := 0)
      (heldItems : Nat := 0)
  /-- R119 -/
  | restoreCancel (items : Nat := 0) (outstanding : Nat := 0)
  /-- R116 -/
  | copied (item : ItemState := .pending) (copied : Nat := 0) (outstanding : Nat := 0)
      (context : ContextState := .free)
  /-- R151 -/
  | sent (volume : Nat := 0) (state : DupState := .idle) (backlog : Nat := 0) (outstanding : Nat := 0)
      (station : Nat := 0)
  /-- R154 -/
  | duplicateNow (state : DupState := .idle)
  /-- R140 -/
  | clock (minute : Nat := 0) (window : WindowState := .closed) (nextAdvance : Option Nat := .none)
  /-- R66 -/
  | forgetStation (station : Nat := 0) (removed : Nat := 0)
  /-- R170: the bytes of the part asked for -/
  | inspect (contents : List (BitVec 8) := [])
  /-- R173 -/
  | amend (old : Nat := 0) (new : Nat := 0) (change : Bool := false) (quota : QuotaState := .normal)
      (overLimit : Bool := false)
  /-- R176: kind number, count and last subject of every non-empty kind -/
  | events (entries : List (Nat × Nat × Nat) := [])
  /-- R177 -/
  | restart (station : Nat := 0) (part : PartState := .configuring) (uptime : Nat := 0)
  /-- R184 -/
  | loadVolume (slot : Nat := 0)
  /-- R185 -/
  | loadSnapshot (retained : Nat := 0)
  /-- R186 -/
  | loadOwner (cls : Nat := 0) (records : Nat := 0)
  /-- R187 -/
  | loadDone (generation : Nat := 0) (volumes : Nat := 0) (snapshots : Nat := 0) (owners : Nat := 0)
      (basesRemoved : Nat := 0) (lock : HoldLock := .unfixed) (cause : LockCause := .image)
  /-- notice 1, COPY (R114) -/
  | copyNotice (context item job sourceVolume targetVolume sourceEpoch sourceStart targetStart
      length : Nat)
  /-- notice 2, SEND in EXTENTS mode (R148) -/
  | sendExtents (ticket volume sendEpoch base cost : Nat) (pieces : List (Nat × Nat))
  /-- notice 2, SEND in SCAN mode (R148) -/
  | sendScan (ticket volume sendEpoch base cost start length : Nat)
  /-- notice 3, CUT (R145) -/
  | cutNotice (volume epoch base : Nat) (scan : Bool) (deadline : Nat)
  /-- notice 4, EXPIRED (R82) -/
  | expired (volume epoch freed : Nat)
  /-- notice 5, RESTORE_END (R111, R120) -/
  | restoreEnd (context job : Nat) (outcome : EndOutcome) (copied charged returned : Nat)
  /-- notice 6, DUP_END (R153) -/
  | dupEnd (volume base : Nat) (scan : Bool) (failures : Nat)
  /-- notice 7, EVENT_PENDING (R175) -/
  | eventPending (kinds counts : Nat)
  deriving DecidableEq, Repr

/-- The type of a record of the completion queue (R179). -/
inductive RecordType | completion | notice
  deriving DecidableEq, Repr

/-- A record of the completion queue (R167, R168, R179): its header, less the count of records behind
it (formed when it is read, R165), and its fields. -/
structure Record where
  type : RecordType
  /-- request kind number or notice number -/
  number : Nat
  status : Status
  /-- the request's tag; 0 in a notice -/
  tag : Nat
  /-- part number and number of parts (R170); 0 of 1 outside INSPECT -/
  part : Nat
  parts : Nat
  body : Body
  deriving DecidableEq, Repr

/-- The Server Port (SVP). -/
structure Port where
  /-- the request queue, head first: accepted records as written (R164, R166) -/
  requests : List (List (BitVec 8))
  /-- the completion queue, oldest first (R165) -/
  completions : List Record
  /-- the request-dropped flag (R164) -/
  dropped : Bool
  /-- the event summary, by event number less one (R174) -/
  events : Vector EventEntry 15
  /-- the EVENT_PENDING due flag (R175) -/
  eventDue : Bool
  /-- the bytes shifted out in the last transaction (R163 to R165; model's own, log 13) -/
  shiftedOut : List (BitVec 8)
  deriving DecidableEq, Repr

/-! ### Owner Table and Admission Unit -/

/-- A contribution (R3, 1.4). -/
structure Contribution where
  station : Fin 16
  blocks : Nat
  generation : Nat
  deriving DecidableEq, Repr

/-- The two limits of an override or of a class (R13, R18). -/
structure Limits where
  soft : Nat
  hard : Nat
  deriving DecidableEq, Repr

/-- An owner record (R3). -/
structure Owner where
  id : BitVec 32
  cls : Fin 8
  used : Nat
  reserved : Nat
  contributions : List Contribution
  overflow : Bool
  override : Option Limits
  grace : Option Nat
  /-- the expiry of the running grace deadline has been taken (R17; model's own, log 11) -/
  graceTaken : Bool
  warmUp : Option Nat
  lastReported : Nat
  reportTime : Option Nat
  lastCharge : Nat
  deriving DecidableEq, Repr

/-- Who made a reservation entry (R26). -/
inductive Origin
  | write
  | restore (context : Fin 4)
  deriving DecidableEq, Repr

/-- A reservation entry with the slot it stands in (R26). -/
structure Reservation where
  slot : Nat
  handle : Nat
  owner : BitVec 32
  blocks : Nat
  volume : Nat
  lease : Option Nat
  origin : Origin
  grantTime : Nat
  deriving DecidableEq, Repr

/-- The Admission Unit (ADM): the slots in use, in ascending slot number, and the handle counter. -/
structure Admission where
  entries : List Reservation
  handleCounter : Nat
  deriving DecidableEq, Repr

/-! ### Link Controller -/

/-- A peer entry (R60). -/
structure Peer where
  state : PeerState
  generation : Nat
  part : PeerPart
  window : Bool
  backlog : Nat
  share : Nat
  ownerCount : Nat
  heard : Option Nat
  announced : Bool
  deriving DecidableEq, Repr

/-- The reset values of a peer entry (R60). -/
def Peer.reset : Peer :=
  { state := .absent, generation := 0, part := .loading, window := false, backlog := 0, share := 0,
    ownerCount := 0, heard := none, announced := false }

/-- A running FORGET sweep (R65, R66), with the tag that its completion will bear (R167). -/
structure Sweep where
  station : Fin 16
  cursor : Option (BitVec 32)
  removed : Nat
  tag : Nat
  deriving DecidableEq, Repr

/-- The pseudo-random generator (R51): its seed and the draws made since. -/
structure Rng where
  station : Nat
  generation : Nat
  drawn : Nat
  deriving DecidableEq, Repr

/-- The Link Controller (LNK). -/
structure Link where
  state : LinkState
  /-- the own generation, 0 before LOAD_DONE (R67) -/
  generation : Nat
  /-- uptime of the next announce-timer expiry; absent while the timer is stopped (R49) -/
  announceNext : Option Nat
  /-- announce-timer expiries counted in LISTENING (R48) -/
  expiries : Nat
  announceSlot : SlotState
  usageSlot : SlotState
  /-- the entries of the composed USAGE frame (R54) -/
  usageEntries : List (BitVec 32 × Nat)
  /-- a newer ANNOUNCE replaced the held one during the attempt on the pair (R53) -/
  replaced : Bool
  /-- attempt count of the frame in the transmitter (R50) -/
  attempts : Nat
  /-- the back-off that is running, in slots (R51) -/
  backoff : Option Nat
  /-- the frame that the transmitter is driving onto the pair (R50) -/
  onPair : Option (List (BitVec 8))
  rng : Rng
  peers : Vector Peer 16
  sweep : Option Sweep
  /-- the sweep visit of the present millisecond is still to be made (R65; model's own, log 10) -/
  visitOwed : Bool
  deriving DecidableEq, Repr

/-! ### Snapshot Catalogue and change lists -/

/-- An extent of an entry of the change list pool (R124). -/
structure Extent where
  start : Nat
  length : Nat
  deriving DecidableEq, Repr

/-- A send list in one of its two modes (R125). -/
inductive SendList
  | extents (entries : List Extent)
  | scan (cursor : Nat)
  deriving DecidableEq, Repr

/-- A volume record: the fields of the catalogue (R69), the change lists (R125) and the duplication
fields (R144). -/
structure Volume where
  id : Nat
  size : Nat
  openEpoch : Nat
  limit : Nat
  autoExpire : Bool
  dupEnable : Bool
  profile : Fin 4
  retained : Nat
  base : Option Nat
  overReported : Bool
  expiryWaiting : Bool
  current : List Extent
  send : SendList
  fullScan : Bool
  dup : DupState
  sendEpoch : Option Nat
  failures : Nat
  cutDeadline : Option Nat
  cutDue : Bool
  endDue : Bool
  atRisk : Bool
  outstanding : Nat
  deriving DecidableEq, Repr

/-- A bucket of a retained list (R71). -/
structure Bucket where
  birth : Nat
  blocks : Nat
  deriving DecidableEq, Repr

/-- A snapshot record (R71). -/
structure Snapshot where
  slot : Fin 8
  epoch : Nat
  kind : SnapKind
  tag : Nat
  created : Nat
  hold : Bool
  pin : Bool
  refs : Nat
  buckets : List Bucket
  deriving DecidableEq, Repr

/-- The Snapshot Catalogue (SCT): volume table, snapshot pool in order of making, hold lock. -/
structure Catalogue where
  vols : Vector (Option Volume) 8
  snaps : List Snapshot
  lock : HoldLock
  lockCause : LockCause
  /-- LOCK_HOLDS has closed the lock since it was fixed (R103) -/
  lockClosedSince : Bool
  deriving DecidableEq, Repr

/-! ### Restore Controller -/

/-- An item of a restore job (R104). -/
structure Item where
  source : Nat
  length : Nat
  birth : Nat
  target : Nat
  state : ItemState
  deriving DecidableEq, Repr

/-- The states that a context outside FREE can be in (R104). -/
inductive JobState | assembling | running | draining
  deriving DecidableEq, Repr

/-- The record of a restore context that is not FREE (R104). -/
structure Context where
  state : JobState
  job : Nat
  owner : BitVec 32
  tracked : Bool
  sourceSlot : Fin 8
  sourceEpoch : Nat
  targetSlot : Fin 8
  k : Nat
  items : List Item
  deadline : Option Nat
  handle : Option Nat
  outstanding : Nat
  failureSeen : Bool
  endDue : Bool
  timeoutDue : Bool
  charged : Nat
  deriving DecidableEq, Repr

/-- The Restore Controller (RSC); a FREE context keeps no record (R104). -/
structure Restore where
  contexts : Vector (Option Context) 4
  jobCounter : Nat
  lastServed : Fin 4
  deriving DecidableEq, Repr

/-! ### Duplication Scheduler -/

/-- What a SEND ticket carries (R148). -/
inductive Work
  | extents (pieces : List Extent)
  | scan (start length : Nat)
  deriving DecidableEq, Repr

/-- A send-ticket record in use (R148). -/
structure Ticket where
  number : Nat
  slot : Fin 8
  sendEpoch : Nat
  work : Work
  cost : Nat
  deriving DecidableEq, Repr

/-- The Duplication Scheduler (DUP), less the duplication fields of the volumes. -/
structure Duplication where
  window : WindowState
  tickets : Vector (Option Ticket) 16
  ticketCounter : Nat
  /-- S, blocks per second (R156) -/
  share : Nat
  /-- the token accumulator, milliblocks (R157) -/
  tokens : Nat
  suspension : Suspension
  lastResume : Option Nat
  deferral : Option Nat
  /-- the running-restores count (R160) -/
  running : Nat
  deriving DecidableEq, Repr

/-! ### The part -/

/-- The whole part, and the commands that wait for it. -/
structure State where
  /-- the RST line is asserted (R180) -/
  rst : Bool
  part : PartState
  /-- the station number as sampled (R180) -/
  station : Fin 16
  /-- the MAINT strap as sampled, high or low (R180) -/
  maint : Bool
  /-- the image values, from the image that passed (R181); none in CONFIGURING and HALTED (R182) -/
  image : Option Image
  /-- what the last image check failed on (R181) -/
  checkFailure : Option CheckFailure
  time : Timebase
  port : Port
  /-- the Owner Table in ascending owner ID (R3) -/
  owners : List Owner
  adm : Admission
  link : Link
  cat : Catalogue
  /-- free entries of the extent pool (R124) -/
  poolFree : Nat
  rsc : Restore
  dup : Duplication
  /-- the commands waiting, first in first out (model's own, log 1) -/
  pending : List Instr
  deriving DecidableEq, Repr

/-- The reasons a step could stop with a fault. -/
inductive Fault
  /-- Raised by no meaning: the spec gives the part no fault that stops it (INVENTORY.md, Faults).
  Safe: no run can end in it. -/
  | unused
  deriving DecidableEq, Repr

/-- The reasons a step could be refused. -/
inductive Refusal
  /-- Raised by exec for a command without a meaning; no arm of exec does so. Safe: the model stops. -/
  | notModelled (mnemonic : String)
  deriving DecidableEq, Repr

/-! ### Reset (R24, R47, R68, R89, R100, R123, R138, R162, R178, R180) -/

/-- The Timebase at either reset: uptime 0, minute of day unset, minute timer stopped (R162, R180). -/
def Timebase.reset : Timebase :=
  { uptime := 0, minute := none, nextAdvance := none, gainOwed := false }

/-- The Server Port at either reset (R178). -/
def Port.reset : Port :=
  { requests := [], completions := [], dropped := false,
    events := Vector.replicate 15 { flag := false, count := 0, subject := 0 },
    eventDue := false, shiftedOut := [] }

/-- The Link Controller at either reset (R68). -/
def Link.reset : Link :=
  { state := .off, generation := 0, announceNext := none, expiries := 0, announceSlot := .empty,
    usageSlot := .empty, usageEntries := [], replaced := false, attempts := 0, backoff := none,
    onPair := none, rng := { station := 0, generation := 0, drawn := 0 },
    peers := Vector.replicate 16 Peer.reset, sweep := none, visitOwed := false }

/-- The Snapshot Catalogue at either reset (R89, R100). -/
def Catalogue.reset : Catalogue :=
  { vols := Vector.replicate 8 none, snaps := [], lock := .unfixed, lockCause := .image,
    lockClosedSince := false }

/-- The Restore Controller at either reset (R123). -/
def Restore.reset : Restore :=
  { contexts := Vector.replicate 4 none, jobCounter := 0, lastServed := 3 }

/-- The Duplication Scheduler at either reset (R162). -/
def Duplication.reset : Duplication :=
  { window := .closed, tickets := Vector.replicate 16 none, ticketCounter := 0, share := 0,
    tokens := 0, suspension := .issuing, lastResume := none, deferral := none, running := 0 }

/-- The part right after a power-on reset (R180), with the straps at station 0 and MAINT low (DESIGN
CHOICE, log 5) and no command waiting. -/
def State.reset : State :=
  { rst := false, part := .configuring, station := 0, maint := false, image := none,
    checkFailure := none, time := Timebase.reset, port := Port.reset, owners := [],
    adm := { entries := [], handleCounter := 0 }, link := Link.reset, cat := Catalogue.reset,
    poolFree := Config.poolEntries, rsc := Restore.reset, dup := Duplication.reset, pending := [] }

end Sys2Proof.Machine
end

