-- ==== Sys2Proof/Machine/Layout.lean ====
section
/-! DEFINITION. The layouts of completions, notices and frames as the server and the peers see them
(section 9.8, R179), and the codes of enumerated values. Where R179 leaves a form open, log 19 and
log 20 say what stands here. -/

namespace Sys2Proof.Machine

/-! ### Codes -/

/-- Status codes 0 to 20 (R167). -/
def Status.code : Status → Nat
  | .ok => 0 | .soft => 1 | .untracked => 2 | .overHard => 3 | .lapsed => 4 | .full => 5
  | .noSuch => 6 | .held => 7 | .locked => 8 | .busy => 9 | .notReady => 10 | .badField => 11
  | .aborted => 12 | .late => 13 | .exceeded => 14 | .reserveFull => 15 | .notExpected => 16
  | .mismatch => 17 | .peerLive => 18 | .notInWindow => 19 | .epochExhausted => 20

/-- 0 NORMAL, 1 SOFT, 2 LAPSED, 3 OVER (R179, owner layout). -/
def QuotaState.code : QuotaState → Nat
  | .normal => 0 | .soft => 1 | .lapsed => 2 | .aboveHard => 3

/-- SCHEDULED, MANUAL, DUPLICATION (R179). -/
def SnapKind.code : SnapKind → Nat
  | .scheduled => 0 | .manual => 1 | .duplication => 2

/-- The kind of a code; none for a code that is none of the three (R73, R185). -/
def SnapKind.ofCode : Nat → Option SnapKind
  | 0 => some .scheduled | 1 => some .manual | 2 => some .duplication | _ => none

/-- UNFIXED, OPEN, CLOSED (R100). -/
def HoldLock.code : HoldLock → Nat
  | .unfixed => 0 | .opened => 1 | .closed => 2

/-- image, MAINT strap (R187). -/
def LockCause.code : LockCause → Nat
  | .image => 0 | .strap => 1

/-- OPEN, CLOSED (R181). -/
def LockAtStart.code : LockAtStart → Nat
  | .opened => 0 | .closed => 1

/-- 1 LOADING and 2 SERVING, as section 9.8 codes them wherever they are sent (R179); CONFIGURING and
HALTED take the codes beside them (log 20). -/
def PartState.code : PartState → Nat
  | .configuring => 0 | .loading => 1 | .serving => 2 | .halted => 3

/-- 1 LOADING, 2 SERVING, as in the ANNOUNCE frame (R179). -/
def PeerPart.code : PeerPart → Nat
  | .loading => 1 | .serving => 2

/-- ABSENT, LIVE, STALE, FORGETTING (R60). -/
def PeerState.code : PeerState → Nat
  | .absent => 0 | .live => 1 | .stale => 2 | .forgetting => 3

/-- OFF, LISTENING, ACTIVE, MUTE (3.1). -/
def LinkState.code : LinkState → Nat
  | .off => 0 | .listening => 1 | .active => 2 | .mute => 3

/-- EMPTY, WAITING, HELD (3.3). -/
def SlotState.code : SlotState → Nat
  | .empty => 0 | .waiting => 1 | .held => 2

/-- FREE, ASSEMBLING, RUNNING, DRAINING (R104). -/
def ContextState.code : ContextState → Nat
  | .free => 0 | .assembling => 1 | .running => 2 | .draining => 3

/-- The state of a context that is not FREE, as completions name it (R104). -/
def JobState.shown : JobState → ContextState
  | .assembling => .assembling | .running => .running | .draining => .draining

/-- PENDING, OUTSTANDING, COPIED, FAILED (R104). -/
def ItemState.code : ItemState → Nat
  | .pending => 0 | .outstanding => 1 | .copied => 2 | .failed => 3

/-- EXTRA, BIRTH, SOURCE_RANGE, TARGET_RANGE, ORDER, SHORT (R110). -/
def AbortReason.code : AbortReason → Nat
  | .extra => 0 | .birth => 1 | .sourceRange => 2 | .targetRange => 3 | .order => 4 | .short => 5

/-- OK, FAILED, CANCELLED (R120), then TIMEOUT (R111; log 20). -/
def EndOutcome.code : EndOutcome → Nat
  | .ok => 0 | .failed => 1 | .cancelled => 2 | .timeout => 3

/-- CLOSED, OPEN, CLOSING (R141). -/
def WindowState.code : WindowState → Nat
  | .closed => 0 | .opened => 1 | .closing => 2

/-- IDLE, CUT_PENDING, SENDING, STALLED, DONE, CARRIED, MISSED (R144). -/
def DupState.code : DupState → Nat
  | .idle => 0 | .cutPending => 1 | .sending => 2 | .stalled => 3 | .done => 4 | .carried => 5
  | .missed => 6

/-- ISSUING, DEFERRED, SUSPENDED (chapter 8). -/
def Suspension.code : Suspension → Nat
  | .issuing => 0 | .deferred => 1 | .suspended => 2

/-- The index of an event kind in the summary: its number less one (section 9.6). -/
def EventKind.index : EventKind → Fin 15
  | .configBad => 0 | .leaseExpired => 1 | .lateCommit => 2 | .usageUnderflow => 3
  | .viewOverflow => 4 | .linkError => 5 | .linkGiveup => 6 | .stationConflict => 7
  | .reserveOver => 8 | .bucketMerge => 9 | .listOverflow => 10 | .cutMissed => 11
  | .volumeStalled => 12 | .atRisk => 13 | .windowCarried => 14

/-- An absent deadline or time is sent as 0 (R179). -/
def timeOrZero (t : Option Nat) : Nat := t.getD 0

/-! ### Records -/

/-- The fields of a completion or notice behind its header, as pairs of width and value, in the order
in which the rule lists them (R179). -/
def Body.fields : Body → List (Nat × Nat)
  | .none => []
  | .reserve handle lease view soft hard quota =>
    [(2, handle), (6, timeOrZero lease), (4, view), (4, soft), (4, hard), (1, quota.code)]
  | .renew lease => [(6, timeOrZero lease)]
  | .cancel returned => [(4, returned)]
  | .commit charged used quota => [(4, charged), (4, used), (1, quota.code)]
  | .release used freed retained => [(4, used), (4, freed), (4, retained)]
  | .snapshot epoch => [(4, epoch)]
  | .deleteSnapshot freed moved receiver hold pin refs contexts send base =>
    [(4, freed), (4, moved), (4, receiver), (1, hold.toNat), (1, pin.toNat), (1, refs),
      (1, contexts), (1, send.toNat), (1, base.toNat)]
  | .marks hold pin refs deletable =>
    [(1, hold.toNat), (1, pin.toNat), (1, refs), (1, deletable.toNat)]
  | .lockHolds lock closedNow => [(1, lock.code), (1, closedNow.toNat)]
  | .restoreOpen context job deadline => [(1, context), (2, job), (6, timeOrZero deadline)]
  | .restoreItem index received reason wouldBe heldItems =>
    [(1, index), (1, received), (1, reason.code), (1, wouldBe), (1, heldItems)]
  | .restoreGo n view soft hard quota reason wouldBe heldItems =>
    [(4, n), (4, view), (4, soft), (4, hard), (1, quota.code), (1, reason.code), (1, wouldBe),
      (1, heldItems)]
  | .restoreCancel items outstanding => [(1, items), (1, outstanding)]
  | .copied item done outstanding context =>
    [(1, item.code), (1, done), (1, outstanding), (1, context.code)]
  | .sent volume state backlog outstanding station =>
    [(2, volume), (1, state.code), (4, backlog), (1, outstanding), (1, station)]
  | .duplicateNow state => [(1, state.code)]
  | .clock minute window nextAdvance =>
    [(2, minute), (1, window.code), (6, timeOrZero nextAdvance)]
  | .forgetStation station removed => [(1, station), (2, removed)]
  | .inspect contents => contents.map fun b => (1, b.toNat)
  | .amend old new change quota overLimit =>
    [(4, old), (4, new), (1, change.toNat), (1, quota.code), (1, overLimit.toNat)]
  | .events entries =>
    (1, entries.length) ::
      entries.flatMap fun (kind, count, subject) => [(1, kind), (1, count), (4, subject)]
  | .restart station part uptime => [(1, station), (1, part.code), (6, uptime)]
  | .loadVolume slot => [(1, slot)]
  | .loadSnapshot retained => [(4, retained)]
  | .loadOwner cls records => [(1, cls), (2, records)]
  | .loadDone generation volumes snapshots owners basesRemoved lock cause =>
    [(2, generation), (1, volumes), (2, snapshots), (2, owners), (1, basesRemoved),
      (1, lock.code), (1, cause.code)]
  | .copyNotice context item job sourceVolume targetVolume sourceEpoch sourceStart targetStart
      length =>
    [(1, context), (1, item), (2, job), (2, sourceVolume), (2, targetVolume), (4, sourceEpoch),
      (4, sourceStart), (4, targetStart), (2, length)]
  | .sendExtents ticket volume sendEpoch base cost pieces =>
    [(2, ticket), (2, volume), (1, 0), (1, pieces.length), (4, sendEpoch), (4, base), (2, cost)] ++
      pieces.flatMap fun (start, length) => [(4, start), (2, length)]
  | .sendScan ticket volume sendEpoch base cost start length =>
    [(2, ticket), (2, volume), (1, 1), (1, 1), (4, sendEpoch), (4, base), (2, cost), (4, start),
      (4, length)]
  | .cutNotice volume epoch base scan deadline =>
    [(2, volume), (4, epoch), (4, base), (1, scan.toNat), (6, deadline)]
  | .expired volume epoch freed => [(2, volume), (4, epoch), (4, freed)]
  | .restoreEnd context job outcome done charged returned =>
    [(1, context), (2, job), (1, outcome.code), (1, done), (4, charged), (4, returned)]
  | .dupEnd volume base scan failures => [(2, volume), (4, base), (1, scan.toNat), (1, failures)]
  | .eventPending kinds counts => [(1, kinds), (2, counts)]

/-- Record type codes: 1 completion, 2 notice (R179). -/
def RecordType.code : RecordType → Nat
  | .completion => 1 | .notice => 2

/-- The bytes of a record behind which `behind` records stand in the queue (R165, R179). -/
def Record.bytes (r : Record) (behind : Nat) : Bytes :=
  let fields := fieldBytes r.body.fields
  fieldBytes [(1, 8 + fields.length), (1, r.type.code), (1, r.number), (1, r.status.code),
    (2, r.tag), (1, behind), (1, r.part * 16 + r.parts)] ++ fields

/-- The empty record that a READ of an empty completion queue shifts out (R165). -/
def emptyRecordBytes : Bytes := fieldBytes [(1, 8), (1, 0), (1, 0), (1, 0), (2, 0), (1, 0), (1, 0)]

/-! ### Frames -/

/-- A frame with its CRC-16 behind it, high byte first (R179). -/
def withCrc16 (bs : Bytes) : Bytes := bs ++ numberBytes 2 (crc16 bs)

/-- The bytes of an ANNOUNCE frame (R56, R179). -/
def announceBytes (station generation : Nat) (part : PeerPart) (window : Bool)
    (backlog share ownerCount : Nat) : Bytes :=
  withCrc16 (fieldBytes [(1, 1), (1, station), (2, generation), (1, part.code), (1, window.toNat),
    (4, backlog), (4, share), (2, ownerCount)])

/-- The bytes of a USAGE frame (R57, R179). -/
def usageBytes (station generation : Nat) (entries : List (OwnerId × Nat)) : Bytes :=
  withCrc16 (fieldBytes ([(1, 2), (1, station), (2, generation), (1, entries.length)] ++
    entries.flatMap fun (owner, used) => [(4, owner.toNat), (4, used)]))

end Sys2Proof.Machine
end

