-- ==== Sys2Proof/Machine/Ops.lean ====
section
/-! DEFINITION. The operations every block shares: the update of one block's state, the completion
queue and its notices, the event summary, and the taking of a request (chapter 9). -/

namespace Sys2Proof.Machine

/-- The outcome of a step. -/
abbrev Outcome := Host.Outcome State Fault Refusal

/-! ### One update for each block -/

def State.setRst (s : State) (b : Bool) : State := { s with rst := b }
def State.setPart (s : State) (p : PartState) : State := { s with part := p }
def State.setImage (s : State) (i : Option Image) : State := { s with image := i }
def State.setCheckFailure (s : State) (f : Option CheckFailure) : State := { s with checkFailure := f }
def State.setTime (s : State) (t : Timebase) : State := { s with time := t }
def State.setPort (s : State) (p : Port) : State := { s with port := p }
def State.setOwners (s : State) (l : List Owner) : State := { s with owners := l }
def State.setAdm (s : State) (a : Admission) : State := { s with adm := a }
def State.setLink (s : State) (l : Link) : State := { s with link := l }
def State.setCat (s : State) (c : Catalogue) : State := { s with cat := c }
def State.setPool (s : State) (n : Nat) : State := { s with poolFree := n }
def State.setRsc (s : State) (r : Restore) : State := { s with rsc := r }
def State.setDup (s : State) (d : Duplication) : State := { s with dup := d }
def State.setPending (s : State) (l : List Instr) : State := { s with pending := l }

/-- While RST is asserted nothing but its release acts on the part (R180; log 6). -/
def whenReleased (s : State) (f : State → State) : Outcome := .next (if s.rst then s else f s)

/-- The values that stand for "no values" where no image has been adopted (R182). In CONFIGURING and
HALTED nothing acts on them; INSPECT sends them as 0 in the summaries that name one (log 7). -/
def blankImage : Image :=
  { classes := Vector.replicate 8
      { soft := 0, hard := 0, grace := 0, margin := 0, threshold := 0, lease := 0 },
    windows := Vector.replicate 8 { base := 0, mask := 0, cls := 0, enable := false },
    profiles := Vector.replicate 4 { maxBlocks := 0, depth := 0, overhead := 0, retryLimit := 0 },
    uplink := 0, minShare := 0, stationCap := 0, announceInterval := 0, staleMultiple := 0,
    sweepPeriod := 0, assemblyTimeout := 0, cutTimeout := 0, copyDepth := 0, minProgress := 0,
    windowStart := 0, windowEnd := 0, scanRatio := 0, lockAtStart := .opened }

/-- The image values in force. -/
def State.cfg (s : State) : Image := s.image.getD blankImage

/-- Image fields in seconds are converted to milliseconds where they are used (00_scope.md, 4). -/
def secondsMs (n : Nat) : Nat := n * 1000

/-- The present uptime. -/
def State.now (s : State) : Nat := s.time.uptime

/-- A deadline has passed when the uptime is equal to it or later (00_scope.md, 4). -/
def State.passed (s : State) (deadline : Option Nat) : Bool :=
  match deadline with
  | none => false
  | some d => d ≤ s.now

/-! ### Fixed tables -/

/-- The eight volume slots, the four contexts, the sixteen stations or tickets, in ascending order. -/
def slots8 : List (Fin 8) := [0, 1, 2, 3, 4, 5, 6, 7]
def slots4 : List (Fin 4) := [0, 1, 2, 3]
def slots16 : List (Fin 16) := [0, 1, 2, 3, 4, 5, 6, 7, 8, 9, 10, 11, 12, 13, 14, 15]
def slots15 : List (Fin 15) := [0, 1, 2, 3, 4, 5, 6, 7, 8, 9, 10, 11, 12, 13, 14]

def State.vol (s : State) (i : Fin 8) : Option Volume := s.cat.vols[i]
def State.context (s : State) (c : Fin 4) : Option Context := s.rsc.contexts[c]
def State.ticket (s : State) (t : Fin 16) : Option Ticket := s.dup.tickets[t]
def State.peer (s : State) (i : Fin 16) : Peer := s.link.peers[i]

def State.putVol (s : State) (i : Fin 8) (v : Option Volume) : State :=
  s.setCat { s.cat with vols := s.cat.vols.set i v }
def State.putContext (s : State) (c : Fin 4) (x : Option Context) : State :=
  s.setRsc { s.rsc with contexts := s.rsc.contexts.set c x }
def State.putTicket (s : State) (t : Fin 16) (x : Option Ticket) : State :=
  s.setDup { s.dup with tickets := s.dup.tickets.set t x }
def State.putPeer (s : State) (i : Fin 16) (p : Peer) : State :=
  s.setLink { s.link with peers := s.link.peers.set i p }

/-- Change the volume record in a slot; a free slot stays free. -/
def State.modifyVol (s : State) (i : Fin 8) (f : Volume → Volume) : State :=
  match s.vol i with
  | none => s
  | some v => s.putVol i (some (f v))

/-- Change the record of a context; a FREE context stays FREE. -/
def State.modifyContext (s : State) (c : Fin 4) (f : Context → Context) : State :=
  match s.context c with
  | none => s
  | some x => s.putContext c (some (f x))

/-- The slot and record of the volume with an ID (R69). -/
def State.findVol (s : State) (id : Nat) : Option (Fin 8 × Volume) :=
  slots8.findSome? fun i =>
    match s.vol i with
    | some v => if v.id = id then some (i, v) else none
    | none => none

/-! ### Completion queue -/

/-- Free slots of the completion queue. -/
def Port.freeSlots (p : Port) : Nat := Config.completionSlots - p.completions.length

/-- The completion queue has notice room (R168). -/
def State.room (s : State) : Bool := Config.noticeRoom ≤ s.port.freeSlots

/-- Place a record at the tail of the completion queue (R167). -/
def State.place (s : State) (r : Record) : State :=
  s.setPort { s.port with completions := s.port.completions ++ [r] }

/-- Place a notice: tag 0, record type NOTICE (R168). Its callers have tested the room. -/
def State.notice (s : State) (number : Nat) (body : Body) : State :=
  s.place { type := .notice, number, status := .ok, tag := 0, part := 0, parts := 1, body }

/-! ### Event summary (9.6) -/

/-- The summary is empty while every flag is clear (R174). -/
def Port.summaryEmpty (p : Port) : Bool := slots15.all fun k => !p.events[k].flag

/-- Raise an event: set its flag, count it up to 255, store its subject; a raise into an empty summary
makes EVENT_PENDING due (R174, R175). -/
def State.raise (s : State) (kind : EventKind) (subject : Nat) : State :=
  let old := s.port.events[kind.index]
  s.setPort { s.port with
    events := s.port.events.set kind.index
      { flag := true, count := min (old.count + 1) 255, subject },
    eventDue := s.port.eventDue || s.port.summaryEmpty }

/-- Non-empty kinds and the sum of their counts (R175). -/
def Port.eventTotals (p : Port) : Nat × Nat :=
  let live := slots15.filter fun k => p.events[k].flag
  (live.length, (live.map fun k => p.events[k].count).sum)

/-- Place EVENT_PENDING while it is due and notice room is present (R175). -/
def State.flushEvent (s : State) : State :=
  if s.port.eventDue ∧ s.room then
    let (kinds, counts) := s.port.eventTotals
    (s.setPort { s.port with eventDue := false }).notice 7 (.eventPending kinds counts)
  else s

/-! ### Requests (9.2) -/

/-- The kind number of a record (R179). -/
def recordKind (r : Bytes) : Nat := fieldAt r 1 1
/-- The tag of a record (R179). -/
def recordTag (r : Bytes) : Nat := fieldAt r 2 2

/-- Place the completion of a request and, behind it, an EVENT_PENDING that has become due (R167,
R175; log 4). -/
def State.answerPart (s : State) (kind tag part parts : Nat) (status : Status) (body : Body) :
    State :=
  (s.place { type := .completion, number := kind, status, tag, part, parts, body }).flushEvent

/-- A completion in one part (R167). -/
def State.answer (s : State) (kind tag : Nat) (status : Status) (body : Body) : State :=
  s.answerPart kind tag 0 1 status body

/-- The part state serves a kind of request (R183, R182). -/
def servedIn (p : PartState) (kind : Nat) : Bool :=
  match p with
  | .configuring => false
  | .halted => kind == 20 || kind == 22 || kind == 23
  | .loading => kind == 18 || kind == 20 || kind == 22 || kind == 23 || (24 ≤ kind && kind ≤ 27)
  | .serving => 1 ≤ kind && kind ≤ 23

/-- The head of the request queue can be taken: a slot of the completion queue is free and the part is
not CONFIGURING (R166). -/
def State.canTake (s : State) : Bool :=
  s.port.completions.length < Config.completionSlots && s.part != .configuring

/-- Remove the head of the request queue (R166). -/
def State.dropHead (s : State) : State :=
  s.setPort { s.port with requests := s.port.requests.drop 1 }

/-- Take the request at the head of the queue if it is of the given kind, make the checks 1 and 2 of
R166, and hand it to its rule. `parse` answers none for a length that the kind and its counts do not
call for; `blank` is the kind's completion with no result. If the head is no such request or cannot be
taken, the step does not come about (log 1). -/
def takeRequest {α : Type} (kind : Nat) (parse : Bytes → Option α) (blank : Body)
    (carry : Nat → α → State → State) (s : State) : State :=
  match s.port.requests with
  | [] => s
  | r :: _ =>
    if s.canTake ∧ recordKind r = kind then
      let tag := recordTag r
      let s := s.dropHead
      match parse r with
      | none => s.answer kind tag .badField blank
      | some q =>
        if tag = 0 then s.answer kind tag .badField blank
        else if servedIn s.part kind then carry tag q s
        else s.answer kind tag .notReady blank
    else s

end Sys2Proof.Machine
end

