-- ==== Sys2Proof/Machine/Flags.lean ====
section
/-! DEFINITION. The derived figures and conditions of the part: none of them is stored, each is computed
from the state whenever it is used (R11 to R14, R19, R70, R77, R80, R125, R136, R149, R155, R158). -/

namespace Sys2Proof.Machine

/-! ### Owners (chapter 1) -/

/-- Owner IDs 00000000 and FFFFFFFF are invalid (R2). -/
def invalidOwner (id : OwnerId) : Bool := id == 0#32 || id == 0xFFFFFFFF#32

/-- An owner ID matches an enabled window when it agrees with the base wherever the mask holds a one
(R1). -/
def Window.holds (w : Window) (id : OwnerId) : Bool := w.enable && (id ^^^ w.base) &&& w.mask == 0#32

/-- The class of an owner ID by the first matching window; none for an untracked owner (R1). -/
def State.classOf (s : State) (id : OwnerId) : Option (Fin 8) :=
  (s.cfg.windows.toList.find? (·.holds id)).map (·.cls)

def State.classRec (s : State) (c : Fin 8) : ClassRec := s.cfg.classes[c]

/-- A contribution is stale while its station is not LIVE or its generation differs from the peer's
(R11). -/
def State.stale (s : State) (c : Contribution) : Bool :=
  (s.peer c.station).state != .live || (s.peer c.station).generation != c.generation

/-- The view: local used, local reserved and all contributions, saturating (R12). -/
def Owner.view (o : Owner) : Nat :=
  min (o.used + o.reserved + (o.contributions.map (·.blocks)).sum) maxCount

/-- The warm-up is running: its deadline is present and the uptime is below it (R12). -/
def State.warming (s : State) (o : Owner) : Bool := o.warmUp.isSome && !s.passed o.warmUp

/-- The view is incomplete (R12). -/
def State.incomplete (s : State) (o : Owner) : Bool :=
  s.warming o || o.overflow || o.contributions.any s.stale

/-- The base limits: the override's, or the class's (R13). -/
def State.baseLimits (s : State) (o : Owner) : Limits :=
  match o.override with
  | some l => l
  | none => { soft := (s.classRec o.cls).soft, hard := (s.classRec o.cls).hard }

/-- A limit other than NONE lowered by a margin, floored at 0 (R13). -/
def lowered (limit margin : Nat) : Nat := if limit = maxCount then limit else limit - margin

/-- The effective limits (R13). -/
def State.effectiveLimits (s : State) (o : Owner) : Limits :=
  let base := s.baseLimits o
  if s.incomplete o then
    let margin := (s.classRec o.cls).margin
    { soft := lowered base.soft margin, hard := lowered base.hard margin }
  else base

/-- The quota state, by the first condition of R14 that holds. -/
def State.quotaState (s : State) (o : Owner) : QuotaState :=
  let limits := s.effectiveLimits o
  if o.view > limits.hard then .aboveHard
  else if o.view > limits.soft ∧ o.grace.isSome then
    if s.passed o.grace then .lapsed else .soft
  else .normal

/-- Report-due (R19). -/
def State.reportDue (s : State) (o : Owner) : Bool :=
  (s.classRec o.cls).threshold ≤ (o.used - o.lastReported) + (o.lastReported - o.used) ||
    (o.used == 0 && o.lastReported != 0)

/-- Overdue (R19). -/
def State.overdue (s : State) (o : Owner) : Bool :=
  match o.reportTime with
  | none => true
  | some t => secondsMs s.cfg.sweepPeriod ≤ s.now - t

/-- Evictable (R6). -/
def State.evictable (s : State) (o : Owner) : Bool :=
  o.used == 0 && o.reserved == 0 && o.lastReported == 0 &&
    s.adm.entries.all fun e => e.owner != o.id

/-! ### Snapshots (chapters 4 and 5) -/

/-- A volume is over its limit (R70). -/
def Volume.overLimit (v : Volume) : Bool := v.limit != maxCount && v.retained > v.limit

/-- A snapshot is deletable (R77). -/
def Snapshot.deletable (x : Snapshot) : Bool := !x.hold && !x.pin && x.refs == 0

/-- A snapshot is eligible for expiry (R80). -/
def Snapshot.eligible (x : Snapshot) : Bool := x.deletable && x.kind != .manual

/-- The snapshots of the volume in a slot. -/
def State.snapsOf (s : State) (i : Fin 8) : List Snapshot := s.cat.snaps.filter (·.slot == i)

/-- The greatest of a list of epochs. -/
def greatest (l : List Nat) : Option Nat := l.foldl (fun m e => some (max (m.getD e) e)) none

/-- The least of a list of epochs. -/
def least (l : List Nat) : Option Nat := l.foldl (fun m e => some (min (m.getD e) e)) none

/-- The epoch of a volume's newest snapshot (R71). -/
def State.newest (s : State) (i : Fin 8) : Option Nat := greatest ((s.snapsOf i).map (·.epoch))

/-- The epoch of a volume's oldest snapshot (R71). -/
def State.oldest (s : State) (i : Fin 8) : Option Nat := least ((s.snapsOf i).map (·.epoch))

/-- The epoch of the next older snapshot of a volume (R71). -/
def State.nextOlder (s : State) (i : Fin 8) (epoch : Nat) : Option Nat :=
  greatest (((s.snapsOf i).map (·.epoch)).filter (· < epoch))

/-- The epoch of a volume's candidate for expiry: its eligible snapshot with the lowest epoch (R80). -/
def State.candidate (s : State) (i : Fin 8) : Option Nat :=
  least (((s.snapsOf i).filter (·.eligible)).map (·.epoch))

/-- The snapshot of a volume with an epoch. -/
def State.findSnap (s : State) (i : Fin 8) (epoch : Nat) : Option Snapshot :=
  s.cat.snaps.find? fun x => x.slot == i && x.epoch == epoch

/-- The contexts outside FREE that name a snapshot as source (R94, R103). -/
def State.restoresOf (s : State) (i : Fin 8) (epoch : Nat) : List (Fin 4) :=
  slots4.filter fun c =>
    match s.context c with
    | some x => x.sourceSlot == i && x.sourceEpoch == epoch
    | none => false

/-- A snapshot holds the send role (R96). -/
def State.holdsSend (s : State) (i : Fin 8) (epoch : Nat) : Bool :=
  match s.vol i with
  | some v => v.sendEpoch == some epoch
  | none => false

/-- A snapshot holds the base role (R97). -/
def State.holdsBase (s : State) (i : Fin 8) (epoch : Nat) : Bool :=
  match s.vol i with
  | some v => v.base == some epoch
  | none => false

/-! ### Change lists and tickets (chapters 7 and 8) -/

/-- The first block behind an extent. -/
def Extent.stop (e : Extent) : Nat := e.start + e.length

/-- The block total of a list (R125). -/
def blockTotal (l : List Extent) : Nat := (l.map (·.length)).sum

/-- A quotient rounded up; 0 for a divisor of 0. -/
def ceilDiv (a b : Nat) : Nat := if b = 0 then 0 else (a + b - 1) / b

/-- The cost of a region without the cap (R155): its length times the scan ratio, in per mille, rounded
up. -/
def regionCost (ratio length : Nat) : Nat := ceilDiv (length * ratio) 1000

/-- The sum of the region costs from the cursor to the end of the volume (R155). Regions start at
multiples of 262,144, so only the last one is shorter. -/
def regionCostsFrom (ratio cursor size : Nat) : Nat :=
  let left := size - cursor
  left / Config.regionBlocks * regionCost ratio Config.regionBlocks +
    regionCost ratio (left % Config.regionBlocks)

/-- What a ticket counts in its volume's backlog (R155). -/
def Ticket.backlog (ratio : Nat) (t : Ticket) : Nat :=
  match t.work with
  | .extents pieces => blockTotal pieces
  | .scan _ length => regionCost ratio length

/-- The tickets outstanding for the station, in record order. -/
def State.ticketsOut (s : State) : List Ticket := slots16.filterMap s.ticket

/-- The tickets outstanding for a volume. -/
def State.ticketsOf (s : State) (i : Fin 8) : List Ticket := s.ticketsOut.filter (·.slot == i)

/-- A ticket of scan mode. -/
def Ticket.isScan (t : Ticket) : Bool := match t.work with | .extents _ => false | .scan _ _ => true

/-- The backlog of a volume, saturating (R155). -/
def State.backlogOf (s : State) (i : Fin 8) (v : Volume) : Nat :=
  let ratio := s.cfg.scanRatio
  let listPart := match v.send with
    | .extents l => blockTotal l
    | .scan cursor => regionCostsFrom ratio cursor v.size
  min (listPart + ((s.ticketsOf i).map (·.backlog ratio)).sum) maxCount

/-- The own backlog B: the SENDING volumes' while the window is OPEN (R155). -/
def State.ownBacklog (s : State) : Nat :=
  if s.dup.window = .opened then
    min (slots8.map fun i =>
      match s.vol i with
      | some v => if v.dup = .sending then s.backlogOf i v else 0
      | none => 0).sum maxCount
  else 0

/-- P: the backlogs of the LIVE peers with the window flag set, not saturated (R156). -/
def State.peerBacklog (s : State) : Nat :=
  (slots16.map fun i =>
    let p := s.peer i
    if p.state = .live ∧ p.window then p.backlog else 0).sum

/-- The scan of a volume is complete (R136). -/
def State.scanComplete (s : State) (i : Fin 8) (v : Volume) : Bool :=
  match v.send with
  | .extents _ => false
  | .scan cursor => cursor == v.size && !(s.ticketsOf i).any (·.isScan)

/-- A SENDING volume whose end is not due has reached its end (R153). -/
def State.endReached (s : State) (i : Fin 8) (v : Volume) : Bool :=
  v.dup == .sending && !v.endDue &&
    match v.send with
    | .extents l => l.isEmpty && (s.ticketsOf i).isEmpty
    | .scan _ => s.scanComplete i v

def State.profileOf (s : State) (v : Volume) : Profile := s.cfg.profiles[v.profile]

/-- A volume has work: an entry that can be taken or split, or a region left (R149). -/
def State.hasWork (s : State) (v : Volume) : Bool :=
  match v.send with
  | .extents [] => false
  | .extents (e :: _) => e.length ≤ (s.profileOf v).maxBlocks || 1 ≤ s.poolFree
  | .scan cursor => cursor < v.size

/-- A volume may issue (R149). -/
def State.mayIssue (s : State) (v : Volume) : Bool :=
  s.dup.window == .opened && s.dup.suspension != .suspended && v.dup == .sending && !v.endDue &&
    v.outstanding < (s.profileOf v).depth && slots16.any (fun t => (s.ticket t).isNone) &&
    s.hasWork v

/-- The estimate of the time a SENDING volume's backlog still needs, in ms; none when unknown (R158). -/
def State.estimate (s : State) (i : Fin 8) (v : Volume) : Option Nat :=
  let share := s.dup.share
  let backlog := s.backlogOf i v
  let p := s.profileOf v
  if share = 0 then none
  else if backlog = 0 then some 0
  else
    let tickets := ceilDiv backlog p.maxBlocks
    let transfer := ceilDiv (backlog * 1000) share
    if p.depth = 1 then some (transfer + tickets * p.overhead)
    else
      let perTicket := ceilDiv (p.maxBlocks * 1000) share
      some (transfer + p.overhead + (tickets - 1) * (p.overhead - perTicket))

/-- Insert a slot before the first one whose estimate is greater; an unknown estimate is last (R159). -/
def insertByEstimate (x : Fin 8 × Option Nat) :
    List (Fin 8 × Option Nat) → List (Fin 8 × Option Nat)
  | [] => [x]
  | y :: ys =>
    let before : Bool := match x.2, y.2 with
      | some a, some b => decide (a < b)
      | some _, none => true
      | none, _ => false
    if before then x :: y :: ys else y :: insertByEstimate x ys

/-- The serving order: the SENDING volumes by ascending estimate, equal ones by lower slot, unknown ones
last (R159). -/
def State.servingOrder (s : State) : List (Fin 8 × Option Nat) :=
  (slots8.filterMap fun i =>
    match s.vol i with
    | some v => if v.dup = .sending then some (i, s.estimate i v) else none
    | none => none).foldl (fun l x => insertByEstimate x l) []

/-- A minute lies within the window (R141). -/
def inWindow (start stop m : Nat) : Bool :=
  if start < stop then start ≤ m && m < stop
  else if stop < start then start ≤ m || m < stop
  else false

/-- The uptime at which the minute of day will next become the end minute (R159). -/
def State.windowEndTime (s : State) : Nat :=
  s.time.nextAdvance.getD 0 +
    60000 * ((s.cfg.windowEnd + 1440 - 1 - s.time.minute.getD 0) % 1440)

/-! ### Lines -/

/-- The completion-ready line: not driven while RST is asserted (R180), otherwise asserted while the
completion queue holds a record (R163). -/
def State.completionReady (s : State) : Option Bool :=
  if s.rst then none else some !s.port.completions.isEmpty

/-- The frame that the part drives onto the station link pair: none while RST is asserted (R50, R180). -/
def State.driven (s : State) : Option Bytes := if s.rst then none else s.link.onPair

/-- The status byte (R164, R179). -/
def Port.statusByte (p : Port) : Byte :=
  BitVec.ofNat 8 (p.dropped.toNat * 128 + min (Config.requestSlots - p.requests.length) 7 * 16 +
    min p.completions.length 15)

end Sys2Proof.Machine
end

