-- ==== Sys2Proof/Machine/OwnerOps.lean ====
section
/-! DEFINITION. The operations of the Owner Table and the Admission Unit (chapters 1 and 2): records,
re-evaluation, creation and eviction, contributions, reservation entries, admission. -/

namespace Sys2Proof.Machine

/-! ### Records -/

def State.findOwner (s : State) (id : OwnerId) : Option Owner := s.owners.find? (·.id == id)

/-- Put a record into the table in ascending owner ID, in place of one with the same ID (R3). -/
def putOwner (o : Owner) : List Owner → List Owner
  | [] => [o]
  | x :: xs =>
    if o.id = x.id then o :: xs
    else if o.id < x.id then o :: x :: xs
    else x :: putOwner o xs

/-- Re-evaluation: the grace-deadline rules applied to the view and effective limits as they stand
(R15). A deadline that is set or removed clears the mark of its expiry (log 11). -/
def State.reevaluate (s : State) (o : Owner) : Owner :=
  if o.view > (s.effectiveLimits o).soft then
    match o.grace with
    | some _ => o
    | none =>
      { o with grace := some (s.now + (s.classRec o.cls).grace * 60000), graceTaken := false }
  else { o with grace := none, graceTaken := false }

/-- Change the record of an owner and re-evaluate it (R16); an absent record stays absent. -/
def State.touchOwner (s : State) (id : OwnerId) (f : Owner → Owner) : State :=
  match s.findOwner id with
  | none => s
  | some o => s.setOwners (putOwner (s.reevaluate (f o)) s.owners)

/-- The record that RESERVE, RESTORE_GO or a late COMMIT creates (R5). -/
def State.freshOwner (s : State) (id : OwnerId) (cls : Fin 8) : Owner :=
  { id, cls, used := 0, reserved := 0, contributions := [], overflow := false, override := none,
    grace := none, graceTaken := false, warmUp := some (s.now + secondsMs s.cfg.sweepPeriod),
    lastReported := 0, reportTime := some s.now, lastCharge := s.now }

/-- The evictable record with the oldest last charge time, of equal ones the one with the lower owner
ID, which stands first (R6). -/
def State.evictionVictim (s : State) : Option Owner :=
  (s.owners.filter s.evictable).foldl (fun best o =>
    match best with
    | none => some o
    | some b => if o.lastCharge < b.lastCharge then some o else some b) none

/-- Put a new record into the table, with the eviction of R6 if it is full; none if nothing is evictable
(R5). -/
def State.addOwner (s : State) (o : Owner) : Option State :=
  if s.owners.length < Config.ownerSlots then some (s.setOwners (putOwner o s.owners))
  else
    match s.evictionVictim with
    | none => none
    | some v => some (s.setOwners (putOwner o (s.owners.filter (·.id != v.id))))

/-- The table with a record for the owner, created if there is none (R5). -/
def State.ensureOwner (s : State) (id : OwnerId) (cls : Fin 8) : Option State :=
  if (s.findOwner id).isSome then some s else s.addOwner (s.freshOwner id cls)

/-- The quota state reported for an owner: of its record, or of the record that would be created (R33,
R113). -/
def State.quotaFor (s : State) (id : OwnerId) (cls : Fin 8) : QuotaState :=
  s.quotaState ((s.findOwner id).getD (s.freshOwner id cls))

/-- The local used of an owner, 0 without a record. -/
def State.usedOf (s : State) (id : OwnerId) : Nat := ((s.findOwner id).map (·.used)).getD 0

/-- The quota state of an owner's record, NORMAL without one. -/
def State.quotaOf (s : State) (id : OwnerId) : QuotaState :=
  ((s.findOwner id).map s.quotaState).getD .normal

/-! ### Contributions (1.4) -/

/-- Insert a contribution in ascending station number, in place of one from the same station. -/
def putContribution (c : Contribution) : List Contribution → List Contribution
  | [] => [c]
  | x :: xs =>
    if c.station = x.station then c :: xs
    else if c.station < x.station then c :: x :: xs
    else x :: putContribution c xs

/-- The contribution with the smallest blocks value, the lowest station of equal ones (R10). -/
def smallestContribution (l : List Contribution) : Option Contribution :=
  l.foldl (fun best c =>
    match best with
    | none => some c
    | some b => if c.blocks < b.blocks then some c else some b) none

/-- A USAGE entry applied to a record's list and overflow flag, and whether VIEW_OVERFLOW is raised
(R9, R10). -/
def Owner.takeReport (o : Owner) (c : Contribution) : Owner × Bool :=
  if c.blocks = 0 then
    ({ o with contributions := o.contributions.filter (·.station != c.station),
              overflow := false }, false)
  else if o.contributions.any (·.station == c.station) ∨
      o.contributions.length < Config.contributionSlots then
    ({ o with contributions := putContribution c o.contributions }, false)
  else
    match smallestContribution o.contributions with
    | some m =>
      if m.blocks < c.blocks then
        ({ o with
            contributions := putContribution c
              (o.contributions.filter (·.station != m.station)),
            overflow := true }, true)
      else ({ o with overflow := true }, true)
    | none => ({ o with overflow := true }, true)

/-- One USAGE entry {owner, blocks} from a station, with the frame's generation (R8, R9, R10). -/
def State.usageEntry (s : State) (station : Fin 16) (generation : Nat) (entry : OwnerId × Nat) :
    State :=
  if (s.peer station).state = .forgetting then s
  else
    match s.findOwner entry.1 with
    | none => s
    | some o =>
      let (o', displaced) := o.takeReport { station, blocks := entry.2, generation }
      let s := s.setOwners (putOwner (s.reevaluate o') s.owners)
      if displaced then s.raise .viewOverflow entry.1.toNat else s

/-! ### Reservation table (2.1) -/

/-- The lowest slot at or above `i` that no entry of the ascending list holds (R26). -/
def lowestFreeSlot : Nat → List Reservation → Nat
  | i, [] => i
  | i, e :: es => if e.slot = i then lowestFreeSlot (i + 1) es else i

/-- Put an entry into the list in ascending slot number. -/
def putEntry (e : Reservation) : List Reservation → List Reservation
  | [] => [e]
  | x :: xs => if e.slot < x.slot then e :: x :: xs else x :: putEntry e xs

/-- The next handle behind `last` that is not in use: 65,535 is followed by 1. Within 513 candidates one
is free (R27). -/
def nextHandle (used : List Nat) : Nat → Nat → Nat
  | 0, last => last
  | fuel + 1, last =>
    let candidate := if last ≥ 65535 then 1 else last + 1
    if candidate ∈ used then nextHandle used fuel candidate else candidate

def State.entryByHandle (s : State) (handle : Nat) : Option Reservation :=
  s.adm.entries.find? (·.handle == handle)

def State.entryInSlot (s : State) (slot : Nat) : Option Reservation :=
  s.adm.entries.find? (·.slot == slot)

/-- Remove an entry; its blocks leave local reserved in the same step, the owner's record changes
further as `f` says and is re-evaluated (R3, R16). -/
def State.removeEntry (s : State) (e : Reservation) (f : Owner → Owner) : State :=
  (s.setAdm { s.adm with entries := s.adm.entries.filter (·.slot != e.slot) }).touchOwner e.owner
    fun o => f { o with reserved := o.reserved - e.blocks }

/-- The lease deadline counted from now for an owner's record: the class lease in ms (R28, R35). -/
def State.leaseFromNow (s : State) (cls : Fin 8) : Nat :=
  s.now + secondsMs (s.classRec cls).lease

/-! ### Admission (2.2) -/

/-- The decision of an admission and the figures it was made on (R29, R30, R33). -/
structure Decision where
  status : Status
  handle : Nat
  lease : Option Nat
  view : Nat
  soft : Nat
  hard : Nat
  deriving DecidableEq, Repr

/-- The table of R30, by the first line that holds. -/
def State.admissionStatus (s : State) (o : Owner) (n : Nat) : Status :=
  let limits := s.effectiveLimits o
  let after := min (o.view + n) maxCount
  if after > limits.hard then .overHard
  else if after > limits.soft ∧ s.passed o.grace then .lapsed
  else if o.reserved + n > maxCount then .full
  else if after > limits.soft then .soft
  else .ok

/-- The grant of R31: a free slot, the owner's record, a handle, the entry, the owner's counts. None is a
refusal with FULL, which leaves the state as it was. -/
def State.grant (s : State) (id : OwnerId) (cls : Fin 8) (n volume : Nat) (origin : Origin) :
    Option (Reservation × State) :=
  let slot := lowestFreeSlot 0 s.adm.entries
  if slot < Config.reservationSlots then
    match s.ensureOwner id cls with
    | none => none
    | some s =>
      let handle := nextHandle (s.adm.entries.map (·.handle)) 513 s.adm.handleCounter
      let lease := match origin with
        | .write => some (s.leaseFromNow cls)
        | .restore _ => none
      let e : Reservation :=
        { slot, handle, owner := id, blocks := n, volume, lease, origin, grantTime := s.now }
      let s := s.setAdm { entries := putEntry e s.adm.entries, handleCounter := handle }
      some (e, s.touchOwner id fun o =>
        { o with reserved := o.reserved + n, lastCharge := s.now })
  else none

/-- Admission of n blocks for a tracked owner (R29 to R31): the record is re-evaluated, the figures are
fixed, the table decides, and a grant is carried out. -/
def State.admitBlocks (s : State) (id : OwnerId) (cls : Fin 8) (n volume : Nat) (origin : Origin) :
    Decision × State :=
  let s := s.touchOwner id fun o => o
  let o := (s.findOwner id).getD (s.freshOwner id cls)
  let limits := s.effectiveLimits o
  let refusal : Status → Decision := fun status =>
    { status, handle := 0, lease := none, view := o.view, soft := limits.soft,
      hard := limits.hard }
  let status := s.admissionStatus o n
  if status = .ok ∨ status = .soft then
    match s.grant id cls n volume origin with
    | none => (refusal .full, s)
    | some (e, s') => ({ refusal status with handle := e.handle, lease := e.lease }, s')
  else (refusal status, s)

end Sys2Proof.Machine
end

