-- ==== Sys2Proof/Machine/LinkOps.lean ====
section
/-! DEFINITION. The operations of the Link Controller (chapter 3): transmit slots, the transmitter, the
USAGE composition, the own ANNOUNCE. -/

namespace Sys2Proof.Machine

/-- The transmitter holds no frame. -/
def Link.transmitterFree (l : Link) : Bool := l.announceSlot != .held && l.usageSlot != .held

/-- A free transmitter takes the ANNOUNCE slot if it is WAITING, else the USAGE slot if it is WAITING;
the attempt count starts at 0 (R50, R55). -/
def State.takeSlot (s : State) : State :=
  let l := s.link
  if l.transmitterFree then
    if l.announceSlot = .waiting then
      s.setLink { l with announceSlot := .held, attempts := 0, backoff := none, onPair := none,
                         replaced := false }
    else if l.usageSlot = .waiting then
      s.setLink { l with usageSlot := .held, attempts := 0, backoff := none, onPair := none,
                         replaced := false }
    else s
  else s

/-- Fill the ANNOUNCE slot while the link is ACTIVE (R53): an EMPTY slot becomes WAITING; in a WAITING or
HELD slot the newer announce replaces the one it holds, and if that one is on the pair it is still owed
after the attempt. -/
def State.fillAnnounce (s : State) : State :=
  let l := s.link
  if l.state = .active then
    match l.announceSlot with
    | .empty => s.setLink { l with announceSlot := .waiting }
    | .waiting => s
    | .held => if l.onPair.isSome then s.setLink { l with replaced := true } else s
  else s

/-- The entries of a USAGE frame: report-due owners first, then overdue ones, each in ascending owner
ID, at most 24 (R20). Owners that a full frame left out are not remembered: a lower owner ID that has
become due meanwhile goes before them (log 36). -/
def State.usageSelection (s : State) : List (OwnerId × Nat) :=
  let due := s.owners.filter s.reportDue
  let late := s.owners.filter fun o => s.overdue o && !s.reportDue o
  ((due ++ late).take Config.usageEntries).map fun o => (o.id, o.used)

/-- Fill the USAGE slot by composing a frame, provided it is EMPTY, the link is ACTIVE and the part is
SERVING; a composition that finds no owner leaves it EMPTY (R54, R20). -/
def State.composeUsage (s : State) : State :=
  let l := s.link
  if l.usageSlot = .empty ∧ l.state = .active ∧ s.part = .serving then
    match s.usageSelection with
    | [] => s
    | e :: es => s.setLink { l with usageSlot := .waiting, usageEntries := e :: es }
  else s

/-- A change of an owner's local used from `before`, after which the owner is report-due, fills the USAGE
slot (R54); a free transmitter then takes a slot (R55). -/
def State.usedChanged (s : State) (id : OwnerId) (before : Nat) : State :=
  match s.findOwner id with
  | none => s
  | some o => if o.used ≠ before ∧ s.reportDue o then s.composeUsage.takeSlot else s

/-- Both slots become EMPTY at once, a frame on the pair is cut off, a back-off is abandoned (R55). -/
def Link.cutOff (l : Link) : Link :=
  { l with announceSlot := .empty, usageSlot := .empty, usageEntries := [], replaced := false,
           attempts := 0, backoff := none, onPair := none }

/-- The own part state as an ANNOUNCE shows it (R56). -/
def PartState.announced (p : PartState) : PeerPart := if p = .serving then .serving else .loading

/-- The own ANNOUNCE frame with its fields as they stand now (R56). -/
def State.announceFrame (s : State) : Bytes :=
  if s.part = .serving then
    announceBytes s.station s.link.generation .serving (s.dup.window == .opened) s.ownBacklog
      s.dup.share s.owners.length
  else announceBytes s.station 0 .loading false 0 0 s.owners.length

/-- The frame that the transmitter holds, with an ANNOUNCE read afresh (R53, R54). -/
def State.heldFrame (s : State) : Option Bytes :=
  if s.link.announceSlot = .held then some s.announceFrame
  else if s.link.usageSlot = .held then
    some (usageBytes s.station s.link.generation s.link.usageEntries)
  else none

/-- A USAGE frame was sent: each owner named that has a record gets last reported and report time (R21). -/
def State.recordSend (s : State) : State :=
  s.link.usageEntries.foldl (fun s (id, used) =>
    match s.findOwner id with
    | none => s
    | some o =>
      s.setOwners (putOwner { o with lastReported := used, reportTime := some s.now } s.owners)) s

/-- Seed the generator (R51). -/
def State.seedRng (s : State) (generation : Nat) : State :=
  s.setLink { s.link with rng := { station := s.station, generation, drawn := 0 } }

/-- The back-off drawn after the attempt that collided: below 2 to the smaller of the attempt count and
6; the draw is a free value (R51; log 9). -/
def Link.drawBackoff (l : Link) : Nat :=
  Config.backoffDraw l.rng.station l.rng.generation l.rng.drawn % 2 ^ min l.attempts 6

/-- The stale limit: stale multiple times announce interval, in ms (R63). -/
def State.staleLimit (s : State) : Nat :=
  s.cfg.staleMultiple * secondsMs s.cfg.announceInterval

/-- The stale deadline of a LIVE peer (R63, R67). -/
def State.staleDeadline (s : State) (p : Peer) : Option Nat :=
  if p.state = .live then p.heard.map (· + s.staleLimit) else none

/-- The first owner record above the sweep's cursor (R65). -/
def State.sweepNext (s : State) (w : Sweep) : Option Owner :=
  match w.cursor with
  | none => s.owners.head?
  | some c => s.owners.find? fun o => c < o.id

end Sys2Proof.Machine
end

