-- ==== Sys2Proof/Machine/Operands.lean ====
section
/-! DEFINITION. The fields of each request record (R179): behind the four header bytes they follow in
the order in which the request's rule lists them. Each parser answers none for a record whose length is
not the one that the kind and its counts call for (R166). -/

namespace Sys2Proof.Machine

/-- An owner ID field (4 bytes). -/
def ownerAt (r : Bytes) (offset : Nat) : OwnerId := BitVec.ofNat 32 (fieldAt r offset 4)

/-- RESERVE (R33): owner, volume ID, n. -/
structure ReserveReq where
  owner : OwnerId
  volume : Nat
  n : Nat
  deriving DecidableEq, Repr

def parseReserve (r : Bytes) : Option ReserveReq :=
  if r.length = 14 then
    some { owner := ownerAt r 4, volume := fieldAt r 8 2, n := fieldAt r 10 4 }
  else none

/-- A request whose one field is a 2-byte number: RENEW and CANCEL (handle), DUPLICATE_NOW (volume ID),
CLOCK (minute), LOAD_DONE (generation). -/
def parseNumber2 (r : Bytes) : Option Nat :=
  if r.length = 6 then some (fieldAt r 4 2) else none

/-- FORGET_STATION (R64): a station number. -/
def parseNumber1 (r : Bytes) : Option Nat :=
  if r.length = 5 then some (fieldAt r 4 1) else none

/-- LOCK_HOLDS, EVENTS, RESTART: no fields. -/
def parseEmpty (r : Bytes) : Option Unit :=
  if r.length = 4 then some () else none

/-- COMMIT (R37): handle, owner, m, extent of volume ID, start and length. -/
structure CommitReq where
  handle : Nat
  owner : OwnerId
  m : Nat
  volume : Nat
  start : Nat
  length : Nat
  deriving DecidableEq, Repr

def parseCommit (r : Bytes) : Option CommitReq :=
  if r.length = 22 then
    some { handle := fieldAt r 4 2, owner := ownerAt r 6, m := fieldAt r 10 4,
           volume := fieldAt r 14 2, start := fieldAt r 16 4, length := fieldAt r 20 2 }
  else none

/-- RELEASE (R41): owner, volume ID, b, birth epoch, extent of start and length. -/
structure ReleaseReq where
  owner : OwnerId
  volume : Nat
  blocks : Nat
  birth : Nat
  start : Nat
  length : Nat
  deriving DecidableEq, Repr

def parseRelease (r : Bytes) : Option ReleaseReq :=
  if r.length = 24 then
    some { owner := ownerAt r 4, volume := fieldAt r 8 2, blocks := fieldAt r 10 4,
           birth := fieldAt r 14 4, start := fieldAt r 18 4, length := fieldAt r 22 2 }
  else none

/-- SNAPSHOT (R73): volume ID, kind, tag. -/
structure SnapshotReq where
  volume : Nat
  kind : Nat
  label : Nat
  deriving DecidableEq, Repr

def parseSnapshot (r : Bytes) : Option SnapshotReq :=
  if r.length = 11 then
    some { volume := fieldAt r 4 2, kind := fieldAt r 6 1, label := fieldAt r 7 4 }
  else none

/-- DELETE_SNAPSHOT (R79): volume ID, epoch. -/
structure DeleteReq where
  volume : Nat
  epoch : Nat
  deriving DecidableEq, Repr

def parseDelete (r : Bytes) : Option DeleteReq :=
  if r.length = 10 then some { volume := fieldAt r 4 2, epoch := fieldAt r 6 4 } else none

/-- HOLD and PIN (R92, R93): volume ID, epoch, action (SET 0, CLEAR 1). -/
structure MarkReq where
  volume : Nat
  epoch : Nat
  action : Nat
  deriving DecidableEq, Repr

def parseMark (r : Bytes) : Option MarkReq :=
  if r.length = 11 then
    some { volume := fieldAt r 4 2, epoch := fieldAt r 6 4, action := fieldAt r 10 1 }
  else none

/-- RESTORE_OPEN (R106): owner, source volume ID and epoch, target volume ID, k. -/
structure OpenReq where
  owner : OwnerId
  source : Nat
  epoch : Nat
  target : Nat
  k : Nat
  deriving DecidableEq, Repr

def parseOpen (r : Bytes) : Option OpenReq :=
  if r.length = 17 then
    some { owner := ownerAt r 4, source := fieldAt r 8 2, epoch := fieldAt r 10 4,
           target := fieldAt r 14 2, k := fieldAt r 16 1 }
  else none

/-- RESTORE_ITEM (R108): context, job, source start, length, birth epoch, target start. -/
structure ItemReq where
  context : Nat
  job : Nat
  source : Nat
  length : Nat
  birth : Nat
  target : Nat
  deriving DecidableEq, Repr

def parseItem (r : Bytes) : Option ItemReq :=
  if r.length = 21 then
    some { context := fieldAt r 4 1, job := fieldAt r 5 2, source := fieldAt r 7 4,
           length := fieldAt r 11 2, birth := fieldAt r 13 4, target := fieldAt r 17 4 }
  else none

/-- RESTORE_GO and RESTORE_CANCEL (R112, R119): context, job. -/
structure JobReq where
  context : Nat
  job : Nat
  deriving DecidableEq, Repr

def parseJob (r : Bytes) : Option JobReq :=
  if r.length = 7 then some { context := fieldAt r 4 1, job := fieldAt r 5 2 } else none

/-- COPIED (R116): context, job, item index, result (ok 0, fail 1). -/
structure CopiedReq where
  context : Nat
  job : Nat
  item : Nat
  result : Nat
  deriving DecidableEq, Repr

def parseCopied (r : Bytes) : Option CopiedReq :=
  if r.length = 9 then
    some { context := fieldAt r 4 1, job := fieldAt r 5 2, item := fieldAt r 7 1,
           result := fieldAt r 8 1 }
  else none

/-- SENT (R151): ticket number, result (ok 0, fail 1). -/
structure SentReq where
  ticket : Nat
  result : Nat
  deriving DecidableEq, Repr

def parseSent (r : Bytes) : Option SentReq :=
  if r.length = 7 then some { ticket := fieldAt r 4 2, result := fieldAt r 6 1 } else none

/-- INSPECT (R170): table, key, part number. The key takes 6 bytes (R179). -/
structure InspectReq where
  table : Nat
  key : Nat
  part : Nat
  deriving DecidableEq, Repr

def parseInspect (r : Bytes) : Option InspectReq :=
  if r.length = 12 then
    some { table := fieldAt r 4 1, key := fieldAt r 5 6, part := fieldAt r 11 1 }
  else none

/-- AMEND (R172): table, key, field, condition, expected value, compare mask, value, write mask,
action. -/
structure AmendReq where
  table : Nat
  key : Nat
  field : Nat
  condition : Nat
  expected : BitVec 32
  compareMask : BitVec 32
  value : BitVec 32
  writeMask : BitVec 32
  action : Nat
  deriving DecidableEq, Repr

def parseAmend (r : Bytes) : Option AmendReq :=
  if r.length = 30 then
    some { table := fieldAt r 4 1, key := fieldAt r 5 6, field := fieldAt r 11 1,
           condition := fieldAt r 12 1, expected := ownerAt r 13, compareMask := ownerAt r 17,
           value := ownerAt r 21, writeMask := ownerAt r 25, action := fieldAt r 29 1 }
  else none

/-- LOAD_VOLUME (R184): volume ID, size, open epoch, reserve limit, auto-expire and duplication enables,
send profile, optional base epoch (presence byte, then the epoch; R179). -/
structure LoadVolumeReq where
  volume : Nat
  size : Nat
  openEpoch : Nat
  limit : Nat
  autoExpire : Nat
  dupEnable : Nat
  profile : Nat
  basePresent : Nat
  base : Nat
  deriving DecidableEq, Repr

def parseLoadVolume (r : Bytes) : Option LoadVolumeReq :=
  if r.length = 26 then
    some { volume := fieldAt r 4 2, size := fieldAt r 6 4, openEpoch := fieldAt r 10 4,
           limit := fieldAt r 14 4, autoExpire := fieldAt r 18 1, dupEnable := fieldAt r 19 1,
           profile := fieldAt r 20 1, basePresent := fieldAt r 21 1, base := fieldAt r 22 4 }
  else none

/-- LOAD_SNAPSHOT (R185): volume ID, epoch, tag, the byte of kind (bits 1 to 0) and persistent hold
(bit 7), bucket count, buckets of birth epoch and block count. -/
structure LoadSnapshotReq where
  volume : Nat
  epoch : Nat
  label : Nat
  kindHold : Nat
  buckets : List Bucket
  deriving DecidableEq, Repr

def parseLoadSnapshot (r : Bytes) : Option LoadSnapshotReq :=
  let count := fieldAt r 15 1
  if 16 ≤ r.length ∧ r.length = 16 + 8 * count then
    some { volume := fieldAt r 4 2, epoch := fieldAt r 6 4, label := fieldAt r 10 4,
           kindHold := fieldAt r 14 1,
           buckets := (List.range count).map fun i =>
             { birth := fieldAt r (16 + 8 * i) 4, blocks := fieldAt r (20 + 8 * i) 4 } }
  else none

/-- LOAD_OWNER (R186): owner, local used, optional override (presence byte, soft, hard; R179). -/
structure LoadOwnerReq where
  owner : OwnerId
  used : Nat
  overridePresent : Nat
  soft : Nat
  hard : Nat
  deriving DecidableEq, Repr

def parseLoadOwner (r : Bytes) : Option LoadOwnerReq :=
  if r.length = 21 then
    some { owner := ownerAt r 4, used := fieldAt r 8 4, overridePresent := fieldAt r 12 1,
           soft := fieldAt r 13 4, hard := fieldAt r 17 4 }
  else none

end Sys2Proof.Machine
end

