-- ==== Sys2Proof/Machine/ListOps.lean ====
section
/-! DEFINITION. The change lists and the extent pool (chapter 7): runs and their cutting, appends and
overflow, the lists at the cut, pieces and regions of tickets. -/

namespace Sys2Proof.Machine

/-! ### Runs (7.2) -/

/-- An entry shares a block with, or is adjacent to, the stretch from `u.1` up to but not including
`u.2`. -/
def Extent.touches (e : Extent) (u : Nat × Nat) : Bool := e.start ≤ u.2 && u.1 ≤ e.stop

/-- A stretch grown by an entry that touches it. -/
def growRun (u : Nat × Nat) (e : Extent) : Nat × Nat :=
  if e.touches u then (min u.1 e.start, max u.2 e.stop) else u

/-- The union of the run of an extent (R126). The list ascends and is disjoint, so one pass downwards
reaches every entry that the run takes in below the extent, and one pass upwards every entry above. -/
def runUnion (l : List Extent) (x : Extent) : Nat × Nat :=
  l.foldl growRun (l.foldr (fun e u => growRun u e) (x.start, x.stop))

/-- The number of pieces of a union (R127). -/
def pieceCount (length : Nat) : Nat := ceilDiv length Config.extentCap

/-- A stretch cut into pieces of 65,535 blocks and a last one with the remainder (R127). -/
def cutPieces (start length : Nat) : List Extent :=
  (List.range (pieceCount length)).map fun i =>
    { start := start + i * Config.extentCap,
      length := min Config.extentCap (length - i * Config.extentCap) }

/-- The result of joining an extent with its run: the new list, the entries absorbed, the pieces needed
(R126, R127). -/
structure Joined where
  list : List Extent
  absorbed : Nat
  pieces : Nat
  deriving DecidableEq, Repr

/-- Join an extent with its run in a list (R126, R127). -/
def joinExtent (l : List Extent) (x : Extent) : Joined :=
  let u := runUnion l x
  let pieces := cutPieces u.1 (u.2 - u.1)
  { list := (l.filter fun e => !e.touches u && e.start < u.1) ++ pieces ++
      (l.filter fun e => !e.touches u && !(e.start < u.1)),
    absorbed := (l.filter fun e => e.touches u).length,
    pieces := pieces.length }

/-! ### Appends to the current list -/

/-- Append an extent to a volume's current list (R127 to R129): joined with its run when the pool has the
entries it needs; otherwise the list overflows. While FULL_SCAN is set it is passed over. -/
def State.appendCurrent (s : State) (i : Fin 8) (x : Extent) : State :=
  match s.vol i with
  | none => s
  | some v =>
    if v.fullScan then s
    else
      let j := joinExtent v.current x
      if j.pieces ≤ s.poolFree + j.absorbed then
        (s.putVol i (some { v with current := j.list })).setPool
          (s.poolFree + j.absorbed - j.pieces)
      else
        ((s.putVol i (some { v with current := [], fullScan := true })).setPool
          (s.poolFree + v.current.length)).raise .listOverflow v.id

/-- Append an extent that brings its own entry to a list, and the entries that the joining frees (R132,
R135). -/
def appendOwned (l : List Extent) (x : Extent) : List Extent × Nat :=
  let j := joinExtent l x
  (j.list, j.absorbed + 1 - j.pieces)

/-- Append extents that bring their own entries, in order (R132, R135). -/
def appendAllOwned (l : List Extent) (xs : List Extent) : List Extent × Nat :=
  xs.foldl (fun (l, freed) x =>
    let (l', n) := appendOwned l x
    (l', freed + n)) (l, 0)

/-! ### The cut (7.3) -/

/-- The entries of a send list. -/
def SendList.entries : SendList → List Extent
  | .extents l => l
  | .scan _ => []

/-- The cut starts a scan (R131). -/
def Volume.cutScans (v : Volume) : Bool :=
  v.fullScan || v.base.isNone || match v.send with | .extents _ => false | .scan _ => true

/-- The lists of a volume at its cut, and the entries that return to the pool (R131, R132). -/
def Volume.cutLists (v : Volume) : Volume × Nat :=
  if v.cutScans then
    ({ v with send := .scan 0, current := [], fullScan := false },
      v.send.entries.length + v.current.length)
  else
    let (l, freed) := appendAllOwned v.send.entries v.current
    ({ v with send := .extents l, current := [] }, freed)

/-! ### Pieces and regions of tickets (7.4, 7.5) -/

/-- Further entries taken whole behind a first piece, lowest first: at most `room` of them, the total
staying at most M (R133). -/
def takeWhole (maxBlocks : Nat) : Nat → Nat → List Extent → List Extent × List Extent
  | 0, _, l => ([], l)
  | _ + 1, _, [] => ([], [])
  | room + 1, total, e :: es =>
    if total + e.length ≤ maxBlocks then
      let (taken, rest) := takeWhole maxBlocks room (total + e.length) es
      (e :: taken, rest)
    else ([], e :: es)

/-- The number of blocks and of entries of the stretch of adjacent entries that begins at `next` (R133). -/
def adjacentStretch (next : Nat) : List Extent → Nat × Nat
  | [] => (0, 0)
  | e :: es =>
    if e.start = next then
      let (blocks, n) := adjacentStretch e.stop es
      (blocks + e.length, n + 1)
    else (0, 0)

/-- Pieces taken from the front of a send list: the pieces, the list left, the entries drawn from the
pool and those returned to it (R133). -/
structure Taken where
  pieces : List Extent
  rest : List Extent
  drawn : Nat
  returned : Nat
  deriving DecidableEq, Repr

/-- The pieces of the next extent-mode ticket (R133). A first entry longer than M is split, and the
stretch that begins with the shortened entry is cut again. -/
def takePieces (maxBlocks : Nat) : List Extent → Taken
  | [] => { pieces := [], rest := [], drawn := 0, returned := 0 }
  | e :: es =>
    if e.length ≤ maxBlocks then
      let (more, rest) := takeWhole maxBlocks (Config.ticketPieces - 1) e.length es
      { pieces := e :: more, rest, drawn := 0, returned := 0 }
    else
      let short : Extent := { start := e.start + maxBlocks, length := e.length - maxBlocks }
      let (blocks, n) := adjacentStretch short.stop es
      let again := cutPieces short.start (short.length + blocks)
      { pieces := [{ start := e.start, length := maxBlocks }],
        rest := again ++ es.drop n, drawn := 1, returned := n + 1 - again.length }

/-- The length of the region that starts at a cursor (R136). -/
def regionAt (cursor size : Nat) : Nat := min Config.regionBlocks (size - cursor)

/-- A failed ticket's pieces or region given back to a send list, and the entries that return to the
pool (R135). -/
def giveBack (work : Work) (send : SendList) : SendList × Nat :=
  match work, send with
  | .extents pieces, .extents l =>
    let (l', freed) := appendAllOwned l pieces
    (.extents l', freed)
  | .extents pieces, .scan cursor => (.scan cursor, pieces.length)
  | .scan start _, .scan cursor => (.scan (min cursor start), 0)
  | .scan _ _, .extents l => (.extents l, 0)

/-- The entries that an answered ticket returns to the pool (R134). -/
def Work.entries : Work → Nat
  | .extents pieces => pieces.length
  | .scan _ _ => 0

end Sys2Proof.Machine
end

