-- ==== Sys2Proof/Machine/CatalogueOps.lean ====
section
/-! DEFINITION. The operations of the Snapshot Catalogue (chapters 4 and 5): retained lists, the
deletion step, references, the auto-expire evaluation. -/

namespace Sys2Proof.Machine

/-- Change the snapshot of a volume with an epoch. -/
def State.modifySnap (s : State) (i : Fin 8) (epoch : Nat) (f : Snapshot → Snapshot) : State :=
  s.setCat { s.cat with
    snaps := s.cat.snaps.map fun x => if x.slot = i ∧ x.epoch = epoch then f x else x }

/-- A reference taken by a role (R94). -/
def State.takeRef (s : State) (i : Fin 8) (epoch : Nat) : State :=
  s.modifySnap i epoch fun x => { x with refs := x.refs + 1 }

/-- A reference given back by the role that took it (R94). -/
def State.giveRef (s : State) (i : Fin 8) (epoch : Nat) : State :=
  s.modifySnap i epoch fun x => { x with refs := x.refs - 1 }

/-! ### Retained lists (4.4) -/

/-- The blocks of a retained list. -/
def bucketTotal (l : List Bucket) : Nat := (l.map (·.blocks)).sum

/-- Blocks added to the bucket of their birth, or a bucket inserted in ascending birth order (R76). -/
def addBucket (b : Bucket) : List Bucket → List Bucket
  | [] => [b]
  | x :: xs =>
    if b.birth = x.birth then { x with blocks := x.blocks + b.blocks } :: xs
    else if b.birth < x.birth then b :: x :: xs
    else x :: addBucket b xs

/-- The insertion rule: of nine buckets the two with the lowest births are merged. The flag says whether
they were (R76). -/
def insertBucket (b : Bucket) (l : List Bucket) : List Bucket × Bool :=
  match addBucket b l with
  | x :: y :: rest =>
    if Config.bucketSlots < rest.length + 2 then
      ({ birth := x.birth, blocks := x.blocks + y.blocks } :: rest, true)
    else (x :: y :: rest, false)
  | short => (short, false)

/-- Blocks added to a snapshot's retained list, BUCKET_MERGE raised for a merge (R76). -/
def State.retainBlocks (s : State) (i : Fin 8) (epoch volumeId : Nat) (b : Bucket) : State :=
  match s.findSnap i epoch with
  | none => s
  | some x =>
    let (l, merged) := insertBucket b x.buckets
    let s := s.modifySnap i epoch fun y => { y with buckets := l }
    if merged then s.raise .bucketMerge volumeId else s

/-- A volume that is no longer over its limit loses the two flags of its crossing (R70). -/
def Volume.settle (v : Volume) : Volume :=
  if v.overLimit then v else { v with overReported := false, expiryWaiting := false }

/-- What a deletion step reports: blocks freed, blocks moved, the epoch that received them (R78, R79). -/
structure Deletion where
  freed : Nat
  moved : Nat
  receiver : Nat
  deriving DecidableEq, Repr

/-- The buckets of a deleted snapshot that move to the next older one: those whose birth it contains
(R78). -/
def movedBuckets (older : Option Nat) (l : List Bucket) : List Bucket :=
  match older with
  | none => []
  | some p => l.filter (·.birth ≤ p)

/-- The deletion step (R78): buckets move to the next older snapshot or are freed, the retained count
falls by the blocks freed, the record leaves the pool, and R70 applies. -/
def State.deletionStep (s : State) (i : Fin 8) (v : Volume) (x : Snapshot) : Deletion × State :=
  let older := s.nextOlder i x.epoch
  let kept := movedBuckets older x.buckets
  let moved := bucketTotal kept
  let freed := bucketTotal x.buckets - moved
  let receiver := older.getD 0
  let s := kept.foldl (fun s b => s.retainBlocks i receiver v.id b) s
  let s := s.setCat { s.cat with
    snaps := s.cat.snaps.filter fun y => !(y.slot == i && y.epoch == x.epoch) }
  let s := s.modifyVol i fun w => { w with retained := w.retained - freed }.settle
  ({ freed, moved, receiver := if moved = 0 then 0 else receiver }, s)

/-! ### Auto-expire (4.6) -/

/-- The auto-expire evaluation of the volume in a slot, by the table of R82. Each round deletes one
snapshot, so the fuel of `evaluate` is enough. -/
def evaluateRounds : Nat → Fin 8 → State → State
  | 0, _, s => s
  | fuel + 1, i, s =>
    match s.vol i with
    | none => s
    | some v =>
      if !v.overLimit then s.putVol i (some { v with expiryWaiting := false })
      else
        match (if v.autoExpire then s.candidate i else none).bind (s.findSnap i) with
        | none =>
          let s := s.putVol i (some { v with expiryWaiting := false, overReported := true })
          if v.overReported then s else (s.raise .reserveOver v.id).flushEvent
        | some x =>
          if s.room then
            let r := s.deletionStep i v x
            evaluateRounds fuel i ((r.2.notice 4 (.expired v.id x.epoch r.1.freed)).flushEvent)
          else s.putVol i (some { v with expiryWaiting := true })

/-- The auto-expire evaluation (R82). -/
def State.evaluate (s : State) (i : Fin 8) : State := evaluateRounds (s.cat.snaps.length + 1) i s

/-- The evaluation that follows a reference given back or a mark cleared on a volume over its limit
(R81, R94). -/
def State.evaluateIfOver (s : State) (i : Fin 8) : State :=
  match s.vol i with
  | none => s
  | some v => if v.overLimit then s.evaluate i else s

/-- The volume in a slot evaluated if its expiry is waiting (R83). -/
def State.evaluateFlagged (s : State) (i : Fin 8) : State :=
  match s.vol i with
  | none => s
  | some v => if v.expiryWaiting then s.evaluate i else s

/-- With notice room, every volume whose expiry is waiting is evaluated in ascending slot order (R83). One
that finds the room used up stays waiting by the table of R82. -/
def State.evaluateWaiting (s : State) : State :=
  if s.room then slots8.foldl State.evaluateFlagged s else s

end Sys2Proof.Machine
end

