-- ==== Sys2Proof/Machine/DupOps.lean ====
section
/-! DEFINITION. The operations of the Duplication Scheduler (chapter 8): issue passes, ends, the window,
cut notices, share, at-risk test, suspension. -/

namespace Sys2Proof.Machine

/-! ### SEND tickets (8.4) -/

/-- The token cost of a volume's next ticket (R133, R150). -/
def State.nextCost (s : State) (v : Volume) : Nat :=
  match v.send with
  | .extents l => blockTotal (takePieces (s.profileOf v).maxBlocks l).pieces
  | .scan cursor => min Config.costCap (regionCost s.cfg.scanRatio (regionAt cursor v.size))

/-- The next ticket number behind `last` that no outstanding ticket holds: 65,535 is followed by 0
(R148). -/
def nextTicketNumber (used : List Nat) : Nat → Nat → Nat
  | 0, last => last
  | fuel + 1, last =>
    let candidate := if last ≥ 65535 then 0 else last + 1
    if candidate ∈ used then nextTicketNumber used fuel candidate else candidate

/-- Issue one ticket for a volume (R150). -/
def State.issueTicket (s : State) (i : Fin 8) (v : Volume) : State :=
  match slots16.find? fun t => (s.ticket t).isNone with
  | none => s
  | some t =>
    let number := nextTicketNumber (s.ticketsOut.map (·.number)) 17 s.dup.ticketCounter
    let cost := s.nextCost v
    let epoch := v.sendEpoch.getD 0
    let base := v.base.getD 0
    let (send, work, pool, body) := match v.send with
      | .extents l =>
        let taken := takePieces (s.profileOf v).maxBlocks l
        (SendList.extents taken.rest, Work.extents taken.pieces,
          s.poolFree + taken.returned - taken.drawn,
          Body.sendExtents number v.id epoch base cost
            (taken.pieces.map fun e => (e.start, e.length)))
      | .scan cursor =>
        let length := regionAt cursor v.size
        (SendList.scan (cursor + length), Work.scan cursor length, s.poolFree,
          Body.sendScan number v.id epoch base cost cursor length)
    let s := s.putVol i (some { v with send, outstanding := v.outstanding + 1 })
    let s := (s.setPool pool).putTicket t
      (some { number, slot := i, sendEpoch := epoch, work, cost })
    let s := s.setDup { s.dup with ticketCounter := number, tokens := s.dup.tokens - cost * 1000 }
    s.notice 2 body

/-- The head: the first volume in the serving order that may issue (R149). -/
def State.head (s : State) : Option (Fin 8 × Volume) :=
  s.servingOrder.findSome? fun (i, _) =>
    match s.vol i with
    | some v => if s.mayIssue v then some (i, v) else none
    | none => none

/-- The head's ticket can be issued: there is notice room and the accumulator holds its cost (R149). -/
def State.affordable (s : State) (v : Volume) : Bool :=
  s.room && s.nextCost v * 1000 ≤ s.dup.tokens

/-- Issue the head's ticket and find the head again, until no head can be issued (R149). -/
def issueRounds : Nat → State → State
  | 0, s => s
  | fuel + 1, s =>
    match s.head with
    | none => s
    | some (i, v) => if s.affordable v then issueRounds fuel (s.issueTicket i v) else s

/-- An issue pass (R149). Each round takes one of the sixteen ticket records. -/
def State.issuePass (s : State) : State := issueRounds 16 s

/-- The issue pass that a return of entries to the pool starts (R149). -/
def State.issueIfFreed (s : State) (before : Nat) : State :=
  if before < s.poolFree then s.issuePass else s

/-! ### Window (8.1) -/

/-- The change from CLOSING to CLOSED, once no ticket is outstanding and no end is due (R143). The volumes
are dealt with, and their events raised, in ascending slot order (log 37). -/
def State.closeIfDone (s : State) : State :=
  if s.dup.window = .closing ∧ s.ticketsOut.isEmpty ∧
      slots8.all (fun i => match s.vol i with | some v => !v.endDue | none => true) then
    slots8.foldl (fun s i =>
      match s.vol i with
      | none => s
      | some v =>
        if v.dup = .sending ∨ v.dup = .stalled then
          (s.putVol i (some { v with dup := .carried })).raise .windowCarried v.id
        else if v.dup = .cutPending then
          (s.putVol i (some { v with dup := .missed, cutDeadline := none, cutDue := false })).raise
            .cutMissed v.id
        else s) (s.setDup { s.dup with window := .closed })
  else s

/-- The opening of the window (R142). -/
def State.openWindow (s : State) : State :=
  let s := s.setDup { s.dup with window := .opened, tokens := 0 }
  let s := slots8.foldl (fun s i => s.modifyVol i fun v =>
    if v.dupEnable then
      { v with failures := 0, atRisk := false, dup := .cutPending, cutDue := true }
    else v) s
  s.setDup { s.dup with
    suspension := if 0 < s.dup.running then .suspended else .issuing, deferral := none }

/-- The window goes from OPEN to CLOSING (R143). -/
def State.startClosing (s : State) : State :=
  (s.setDup { s.dup with window := .closing, suspension := .issuing, deferral := none }).closeIfDone

/-- A change of the minute of day handed to the Duplication Scheduler, by the table of R141. -/
def State.minuteChanged (s : State) (m : Nat) : State :=
  if s.part = .serving then
    match s.dup.window with
    | .closed =>
      if m = s.cfg.windowStart ∧ s.cfg.windowStart ≠ s.cfg.windowEnd then s.openWindow else s
    | .opened => if inWindow s.cfg.windowStart s.cfg.windowEnd m then s else s.startClosing
    | .closing => s
  else s

/-! ### Cuts (8.3) -/

/-- A CUT notice may be placed for a volume (R145). -/
def Volume.cutReady (v : Volume) : Bool := v.cutDue && v.dup == .cutPending

/-- Place the CUT notice of one volume (R145). -/
def State.placeCut (s : State) (i : Fin 8) (v : Volume) : State :=
  let deadline := s.now + secondsMs s.cfg.cutTimeout
  (s.putVol i (some { v with cutDue := false, cutDeadline := some deadline })).notice 3
    (.cutNotice v.id v.openEpoch (v.base.getD 0) v.cutScans deadline)

/-- Place the CUT notices that are due, in ascending slot order, while room lasts (R145). -/
def State.placeCuts (s : State) : State :=
  slots8.foldl (fun s i =>
    match s.vol i with
    | none => s
    | some v => if v.cutReady ∧ s.room then s.placeCut i v else s) s

/-- The notices and tickets that follow a change of the minute (R145, R149). -/
def State.afterMinute (s : State) : State := s.flushEvent.placeCuts.issuePass

/-! ### Ends (R153) -/

/-- The test for the end of a volume (R153). -/
def State.testEnd (s : State) (i : Fin 8) : State :=
  match s.vol i with
  | none => s
  | some v => if s.endReached i v then s.putVol i (some { v with endDue := true }) else s

/-- The end step of a volume whose end is due, taken with notice room (R153), and the test of the
window's close that follows it (R143). -/
def State.dupEndStep (s : State) (i : Fin 8) : State :=
  match s.vol i with
  | none => s
  | some v =>
    if v.endDue ∧ s.room then
      let s := match v.base with
        | some b => s.giveRef i b
        | none => s
      let scan := match v.send with | .extents _ => false | .scan _ => true
      let s := s.putVol i (some
        { v with base := v.sendEpoch, sendEpoch := none, dup := .done, endDue := false,
                 send := if scan then .extents [] else v.send })
      let s := s.notice 6 (.dupEnd v.id (v.sendEpoch.getD 0) scan v.failures)
      (s.evaluateIfOver i).closeIfDone.flushEvent
    else s

/-! ### Share, pacing, at-risk (8.5) -/

/-- The share worked out from B and P (R156). -/
def shareOf (cfg : Image) (own peers : Nat) : Nat :=
  if own = 0 then 0
  else
    min (max (cfg.uplink * own / (own + peers)) (cfg.uplink * cfg.minShare / 1000))
      (min cfg.uplink cfg.stationCap)

/-- Recompute the share (R156). -/
def State.recomputeShare (s : State) : State :=
  s.setDup { s.dup with share := shareOf s.cfg s.ownBacklog s.peerBacklog }

/-- One volume of the AT_RISK test: its estimate joins the running sum, and a volume whose sum passes the
window end time is marked once (R159). A sum equal to the window end time does not pass it (log 35). -/
def riskStep (windowEnd : Nat) (acc : Nat × State) (x : Fin 8 × Option Nat) : Nat × State :=
  match x.2, acc.2.vol x.1 with
  | some e, some v =>
    if windowEnd < acc.1 + e ∧ !v.atRisk then
      (acc.1 + e, (acc.2.putVol x.1 (some { v with atRisk := true })).raise .atRisk v.id)
    else (acc.1 + e, acc.2)
  | _, _ => acc

/-- The AT_RISK test: the estimates are added in serving order from the present uptime (R159). -/
def State.testAtRisk (s : State) : State :=
  if s.dup.window = .opened then
    (s.servingOrder.foldl (riskStep s.windowEndTime) (s.now, s)).2
  else s

/-! ### Suspension by restores (8.6) -/

/-- The running-restores count rises (R160). -/
def State.restoreStarts (s : State) : State :=
  let d := s.dup
  let count := d.running + 1
  if d.window = .opened ∧ d.suspension = .issuing then
    let resumeEnd := d.lastResume.map (· + secondsMs s.cfg.minProgress)
    match resumeEnd with
    | some t =>
      if s.now < t then
        s.setDup { d with running := count, suspension := .deferred, deferral := some t }
      else s.setDup { d with running := count, suspension := .suspended }
    | none => s.setDup { d with running := count, suspension := .suspended }
  else s.setDup { d with running := count }

/-- The running-restores count falls; at 0 a SUSPENDED state resumes with an issue pass (R160). -/
def State.restoreEnds (s : State) : State :=
  let d := s.dup
  if d.running - 1 = 0 ∧ d.suspension = .suspended then
    (s.setDup { d with running := 0, suspension := .issuing, lastResume := some s.now }).issuePass
  else s.setDup { d with running := d.running - 1 }

end Sys2Proof.Machine
end

