-- ==== Sys2Proof/Machine/RestoreOps.lean ====
section
/-! DEFINITION. The operations of the Restore Controller (chapter 6), and the arrival of notice room,
which serves every waiting producer (R169). -/

namespace Sys2Proof.Machine

/-- The volume ID in a slot; 0 for a free slot. -/
def State.volumeId (s : State) (i : Fin 8) : Nat := ((s.vol i).map (·.id)).getD 0

/-! ### COPY notices (6.5) -/

/-- A COPY notice may be placed for a context (R114). -/
def Context.copyReady (x : Context) (depth : Nat) : Bool :=
  x.state == .running && x.items.any (·.state == .pending) && x.outstanding < depth

/-- The contexts in ascending number, starting after the last-served one (R115). -/
def roundRobin (last : Fin 4) : List (Fin 4) := [last + 1, last + 2, last + 3, last]

/-- Place the COPY notice of a context's lowest PENDING item (R114). -/
def State.placeCopy (s : State) (c : Fin 4) (x : Context) : State :=
  let index := x.items.findIdx (·.state == .pending)
  match x.items[index]? with
  | none => s
  | some item =>
    let s := s.putContext c (some
      { x with items := x.items.set index { item with state := .outstanding },
               outstanding := x.outstanding + 1 })
    let s := s.setRsc { s.rsc with lastServed := c }
    s.notice 1 (.copyNotice c index x.job (s.volumeId x.sourceSlot) (s.volumeId x.targetSlot)
      x.sourceEpoch item.source item.target item.length)

/-- The first context in round robin that may have a COPY notice placed (R115). -/
def State.nextCopy (s : State) : Option (Fin 4 × Context) :=
  (roundRobin s.rsc.lastServed).findSome? fun c =>
    match s.context c with
    | some x => if x.copyReady s.cfg.copyDepth then some (c, x) else none
    | none => none

/-- Place COPY notices in round robin while room lasts (R115). -/
def copyRounds : Nat → State → State
  | 0, s => s
  | fuel + 1, s =>
    match s.nextCopy with
    | none => s
    | some (c, x) => if s.room then copyRounds fuel (s.placeCopy c x) else s

/-- Place the COPY notices that may be placed (R115): at most sixteen items are ever OUTSTANDING (R114). -/
def State.placeCopies (s : State) : State := copyRounds 16 s

/-! ### Ends (6.3, 6.7) -/

/-- The context returns to FREE and gives its source reference back (R95). -/
def State.freeContext (s : State) (c : Fin 4) (x : Context) : State :=
  (s.putContext c none).giveRef x.sourceSlot x.sourceEpoch

/-- The number of items COPIED. -/
def Context.copiedCount (x : Context) : Nat := (x.items.filter (·.state == .copied)).length

/-- A job has reached its end (R120). -/
def Context.ended (x : Context) : Bool :=
  match x.state with
  | .assembling => false
  | .running => x.copiedCount == x.k
  | .draining => x.outstanding == 0

/-- The test for the end of a job (R120). -/
def State.testJobEnd (s : State) (c : Fin 4) : State :=
  s.modifyContext c fun x => if x.ended then { x with endDue := true } else x

/-- The outcome of a job (R120). -/
def Context.outcome (x : Context) : EndOutcome :=
  if x.copiedCount = x.k then .ok else if x.failureSeen then .failed else .cancelled

/-- The end step of a context whose end is due, taken with notice room (R120). The issue pass of a resume
(R160) runs inside step 5, before the evaluation of step 6 and before the later producers of R169
(log 23). -/
def State.restoreEndStep (s : State) (c : Fin 4) : State :=
  match s.context c with
  | none => s
  | some x =>
    if x.endDue ∧ s.room then
      let entry := x.handle.bind s.entryByHandle
      let s := match entry with
        | some e => s.removeEntry e fun o => o
        | none => s
      let s := s.freeContext c x
      let s := s.notice 5 (.restoreEnd c x.job x.outcome x.copiedCount x.charged
        ((entry.map (·.blocks)).getD 0))
      (s.restoreEnds.evaluateIfOver x.sourceSlot).flushEvent
    else s

/-- The assembly timeout of a context, taken with notice room (R111). -/
def State.assemblyTimeout (s : State) (c : Fin 4) : State :=
  match s.context c with
  | none => s
  | some x =>
    if x.timeoutDue ∧ x.state = .assembling ∧ s.room then
      let s := (s.freeContext c x).notice 5 (.restoreEnd c x.job .timeout 0 0 0)
      (s.evaluateIfOver x.sourceSlot).flushEvent
    else s

/-! ### The arrival of notice room (9.3) -/

/-- At an arrival of room the waiting producers place notices in the order of R169, each while room
lasts. -/
def State.roomArrives (s : State) : State :=
  let s := s.flushEvent
  let s := slots4.foldl (fun s c => (s.assemblyTimeout c).restoreEndStep c) s
  let s := slots8.foldl State.dupEndStep s
  s.evaluateWaiting.placeCuts.placeCopies.issuePass

end Sys2Proof.Machine
end

