-- ==== Sys2Proof/Machine/QuotaCmds.lean ====
section
/-! DEFINITION. The requests of the Admission Unit (chapter 2) and the timer steps of the Owner Table and
the reservation table: RESERVE, RENEW, CANCEL, COMMIT, RELEASE, LEASE_EXPIRY, WARM_UP_END,
GRACE_DEADLINE_EXPIRY. -/

namespace Sys2Proof.Machine

/-- The largest block count of a request (R29, R37, R41). -/
abbrev maxRequestBlocks : Nat := 16777215

/-- RESERVE behind the checks of R166 (R33). -/
def reserveRequest (tag : Nat) (q : ReserveReq) (s : State) : State :=
  if invalidOwner q.owner ∨ q.volume = 0 ∨ q.n = 0 ∨ maxRequestBlocks < q.n then
    s.answer 1 tag .badField (.reserve)
  else if (s.findVol q.volume).isNone then s.answer 1 tag .noSuch (.reserve)
  else
    match s.classOf q.owner with
    | none => s.answer 1 tag .untracked (.reserve)
    | some cls =>
      let (d, s) := s.admitBlocks q.owner cls q.n q.volume .write
      s.answer 1 tag d.status
        (.reserve d.handle d.lease d.view d.soft d.hard (s.quotaFor q.owner cls))

/-- RESERVE (R33). -/
def execReserve (s : State) : Outcome :=
  whenReleased s <| takeRequest 1 parseReserve (.reserve) reserveRequest

/-- RENEW behind the checks of R166 (R35). -/
def renewRequest (tag : Nat) (handle : Nat) (s : State) : State :=
  if handle = 0 then s.answer 2 tag .badField (.renew)
  else
    match s.entryByHandle handle with
    | none => s.answer 2 tag .noSuch (.renew)
    | some e =>
      if e.origin = .write then
        let lease := s.leaseFromNow (((s.findOwner e.owner).map (·.cls)).getD 0)
        let renewed := s.adm.entries.map fun x =>
          if x.slot = e.slot then { x with lease := some lease } else x
        (s.setAdm { s.adm with entries := renewed }).answer 2 tag .ok (.renew (some lease))
      else s.answer 2 tag .noSuch (.renew)

/-- RENEW (R35). -/
def execRenew (s : State) : Outcome :=
  whenReleased s <| takeRequest 2 parseNumber2 (.renew) renewRequest

/-- CANCEL behind the checks of R166 (R36). -/
def cancelRequest (tag : Nat) (handle : Nat) (s : State) : State :=
  if handle = 0 then s.answer 4 tag .badField (.cancel)
  else
    match s.entryByHandle handle with
    | none => s.answer 4 tag .noSuch (.cancel)
    | some e =>
      if e.origin = .write then
        (s.removeEntry e fun o => { o with lastCharge := s.now }).answer 4 tag .ok
          (.cancel e.blocks)
      else s.answer 4 tag .badField (.cancel)

/-- CANCEL (R36). -/
def execCancel (s : State) : Outcome :=
  whenReleased s <| takeRequest 4 parseNumber2 (.cancel) cancelRequest

/-- An owner charged m blocks at the present uptime (R4). -/
def Owner.charge (o : Owner) (m now : Nat) : Owner :=
  { o with used := satAdd o.used m, lastCharge := now }

/-- The extent of a COMMIT or RELEASE appended to its volume's current list, if it has one (R130). -/
def State.appendExtent (s : State) (volume start length : Nat) : State :=
  match s.findVol volume with
  | none => s
  | some (i, _) => if length = 0 then s else s.appendCurrent i { start, length }

/-- The end of a COMMIT: the extent, the completion, and the issue pass of R149 if entries returned to
the pool. -/
def State.finishCommit (s : State) (tag : Nat) (q : CommitReq) (status : Status) (charged used : Nat)
    (quota : QuotaState) : State :=
  let free := s.poolFree
  ((s.appendExtent q.volume q.start q.length).answer 3 tag status
    (.commit charged used quota)).issueIfFreed free

/-- A COMMIT that passed its checks and names the WRITE entry of its owner (R38). -/
def commitEntry (tag : Nat) (q : CommitReq) (e : Reservation) (s : State) : State :=
  let before := s.usedOf q.owner
  let s := (s.removeEntry e fun o => o.charge q.m s.now).usedChanged q.owner before
  s.finishCommit tag q (if q.m ≤ e.blocks then .ok else .exceeded) q.m (s.usedOf q.owner)
    (s.quotaOf q.owner)

/-- A COMMIT that passed its checks and names no entry (R39). -/
def commitLate (tag : Nat) (q : CommitReq) (s : State) : State :=
  match s.classOf q.owner with
  | none => s.finishCommit tag q .untracked 0 0 .normal
  | some cls =>
    let before := s.usedOf q.owner
    let s := s.raise .lateCommit q.owner.toNat
    match s.ensureOwner q.owner cls with
    | none => s.finishCommit tag q .late 0 0 .normal
    | some s =>
      let s := (s.touchOwner q.owner fun o => o.charge q.m s.now).usedChanged q.owner before
      s.finishCommit tag q .late q.m (s.usedOf q.owner) (s.quotaOf q.owner)

/-- An extent reaches past the volume size. -/
def Volume.reachesPast (v : Volume) (start length : Nat) : Bool := v.size < start + length

/-- The checks 2 and 3 of COMMIT on its extent; none when they pass (R37). A volume ID of 0 is answered
BAD_FIELD (R69; log 17). -/
def State.extentCheck (s : State) (q : CommitReq) : Option Status :=
  if q.length = 0 then none
  else if q.volume = 0 then some .badField
  else
    match s.findVol q.volume with
    | none => some .noSuch
    | some (_, v) => if v.reachesPast q.start q.length then some .badField else none

/-- COMMIT behind the checks of R166 (R37). -/
def commitRequest (tag : Nat) (q : CommitReq) (s : State) : State :=
  if invalidOwner q.owner ∨ maxRequestBlocks < q.m then s.answer 3 tag .badField (.commit)
  else
    match s.extentCheck q with
    | some status => s.answer 3 tag status (.commit)
    | none =>
      match (if q.handle = 0 then none else s.entryByHandle q.handle) with
      | none => commitLate tag q s
      | some e =>
        if e.owner ≠ q.owner ∨ e.origin ≠ .write ∨ (q.length ≠ 0 ∧ q.volume ≠ e.volume) then
          s.answer 3 tag .badField (.commit)
        else commitEntry tag q e s

/-- COMMIT (R37 to R39). -/
def execCommit (s : State) : Outcome :=
  whenReleased s <| takeRequest 3 parseCommit (.commit) commitRequest

/-- The quota side of RELEASE (R42). -/
def State.releaseQuota (s : State) (id : OwnerId) (b : Nat) : State :=
  match s.findOwner id with
  | none => s
  | some o =>
    let s' := s.touchOwner id fun o => { o with used := o.used - b, lastCharge := s.now }
    (if o.used < b then s'.raise .usageUnderflow id.toNat else s').usedChanged id o.used

/-- The retention side of RELEASE: the blocks freed and retained, and the state (R75). -/
def State.releaseRetention (s : State) (i : Fin 8) (v : Volume) (birth c : Nat) :
    Nat × Nat × State :=
  match s.newest i with
  | none => (c, 0, s)
  | some n =>
    if c = 0 ∨ n < birth then (c, 0, s)
    else
      let kept := min c (maxCount - v.retained)
      if kept = 0 then (c, 0, s)
      else
        let s := s.retainBlocks i n v.id { birth, blocks := kept }
        (c - kept, kept, s.modifyVol i fun w => { w with retained := w.retained + kept })

/-- RELEASE behind the checks of R166 (R41): quota, retention and change side as one step, then the
completion, then what it starts (R81, R149). The extent is checked for every length (log 18). -/
def releaseRequest (tag : Nat) (q : ReleaseReq) (s : State) : State :=
  if invalidOwner q.owner ∨ q.volume = 0 ∨ maxRequestBlocks < q.blocks then
    s.answer 5 tag .badField (.release)
  else
    match s.findVol q.volume with
    | none => s.answer 5 tag .noSuch (.release)
    | some (i, v) =>
      if v.openEpoch < q.birth ∨ v.reachesPast q.start q.length then
        s.answer 5 tag .badField (.release)
      else
        let status : Status := if (s.findOwner q.owner).isSome then .ok else .untracked
        let s := s.releaseQuota q.owner q.blocks
        let (freed, retained, s) := s.releaseRetention i v q.birth q.blocks
        let free := s.poolFree
        let s := s.appendExtent q.volume q.start q.length
        let s := s.answer 5 tag status (.release (s.usedOf q.owner) freed retained)
        let s := if retained = 0 then s else s.evaluate i
        s.issueIfFreed free

/-- RELEASE (R41). -/
def execRelease (s : State) : Outcome :=
  whenReleased s <| takeRequest 5 parseRelease (.release) releaseRequest

/-! ### Timer steps -/

/-- LEASE_EXPIRY (R28): a WRITE entry whose lease deadline has passed is removed, and LEASE_EXPIRED is
raised. The last charge time stays. -/
def execLeaseExpiry (slot : Nat) (s : State) : Outcome :=
  whenReleased s fun s =>
    match s.entryInSlot slot with
    | none => s
    | some e =>
      if s.passed e.lease then
        ((s.removeEntry e fun o => o).raise .leaseExpired e.owner.toNat).flushEvent
      else s

/-- WARM_UP_END (R7): the deadline is removed and the record re-evaluated. -/
def execWarmUpEnd (owner : BitVec 32) (s : State) : Outcome :=
  whenReleased s fun s =>
    match s.findOwner owner with
    | none => s
    | some o =>
      if s.passed o.warmUp then s.touchOwner owner fun o => { o with warmUp := none } else s

/-- GRACE_DEADLINE_EXPIRY (R17): the record is re-evaluated, once for a running deadline (log 11). -/
def execGraceDeadlineExpiry (owner : BitVec 32) (s : State) : Outcome :=
  whenReleased s fun s =>
    match s.findOwner owner with
    | none => s
    | some o =>
      if s.passed o.grace ∧ !o.graceTaken then
        s.touchOwner owner fun o => { o with graceTaken := true }
      else s

end Sys2Proof.Machine
end

