-- ==== Sys2Proof/Machine/AmendCmds.lean ====
section
/-! DEFINITION. AMEND (9.5): the checks, the compare and the masked write, and the effect that each of
the six fields has (R172, R173, R18, R85). -/

namespace Sys2Proof.Machine

/-- The six fields, in the order of their codes 0 to 5 (section 9.5, R179). -/
inductive AmendField
  | overrideSoft | overrideHard | reserveLimit | autoExpire | dupEnable | snapshotTag
  deriving DecidableEq, Repr

/-- The field that a table number and a field code name (R172, check 1). -/
def AmendField.of (table field : Nat) : Option AmendField :=
  match table, field with
  | 1, 0 => some .overrideSoft
  | 1, 1 => some .overrideHard
  | 4, 2 => some .reserveLimit
  | 4, 3 => some .autoExpire
  | 4, 4 => some .dupEnable
  | 5, 5 => some .snapshotTag
  | _, _ => none

/-- The field belongs to an override. -/
def AmendField.isOverride : AmendField → Bool
  | .overrideSoft | .overrideHard => true
  | .reserveLimit | .autoExpire | .dupEnable | .snapshotTag => false

/-- The field takes 0 or 1 only. -/
def AmendField.isEnable : AmendField → Bool
  | .autoExpire | .dupEnable => true
  | .overrideSoft | .overrideHard | .reserveLimit | .snapshotTag => false

/-- The condition on the masked old and expected values (R173). -/
def AmendReq.conditionHolds (q : AmendReq) (old : BitVec 32) : Bool :=
  let a := old &&& q.compareMask
  let b := q.expected &&& q.compareMask
  match q.condition with
  | 0 => true
  | 1 => a == b
  | 2 => a != b
  | 3 => a.toNat < b.toNat
  | _ => b.toNat ≤ a.toNat

/-- The value with the write mask's bits taken from the request and the others from the old value
(R173). -/
def AmendReq.merged (q : AmendReq) (old : BitVec 32) : BitVec 32 :=
  (old &&& ~~~ q.writeMask) ||| (q.value &&& q.writeMask)

/-- The action is REMOVE (R172). -/
def AmendReq.removes (q : AmendReq) : Bool := q.action == 1

/-- A refusal of AMEND. -/
def State.refuseAmend (s : State) (tag : Nat) (status : Status) : State :=
  s.answer 21 tag status (.amend)

/-! ### OWNER (R18) -/

/-- The override that a SET leaves: the amended field takes the value, the other keeps its own, or the
class limit where the override was absent (R18). -/
def setOverride (soft : Bool) (value : Nat) (current classLimits : Limits) (present : Bool) : Limits :=
  let base := if present then current else classLimits
  if soft then { base with soft := value } else { base with hard := value }

/-- The old value of an override field: an absent override reads as NONE (R18, R173). -/
def overrideValue (soft : Bool) (o : Option Limits) : Nat :=
  match o with
  | none => maxCount
  | some l => if soft then l.soft else l.hard

/-- The override after an AMEND (R18, R173). -/
def State.amendedOverride (s : State) (q : AmendReq) (soft : Bool) (o : Owner) : Option Limits :=
  if q.removes then none
  else
    let value := (q.merged (BitVec.ofNat 32 (overrideValue soft o.override))).toNat
    let cls := s.classRec o.cls
    some (setOverride soft value (o.override.getD { soft := 0, hard := 0 })
      { soft := cls.soft, hard := cls.hard } o.override.isSome)

/-- AMEND of an override field (R18, R173). -/
def amendOwner (tag : Nat) (q : AmendReq) (soft : Bool) (s : State) : State :=
  let id := BitVec.ofNat 32 q.key
  if invalidOwner id ∨ maxCount < q.key then s.refuseAmend tag .badField
  else
    match s.findOwner id with
    | none => s.refuseAmend tag .noSuch
    | some o =>
      let old := overrideValue soft o.override
      if q.conditionHolds (BitVec.ofNat 32 old) then
        let next := s.amendedOverride q soft o
        let change := next != o.override
        let s := if change then s.touchOwner id fun o => { o with override := next } else s
        s.answer 21 tag .ok
          (.amend old (overrideValue soft next) change (quota := s.quotaOf id))
      else s.refuseAmend tag .mismatch

/-! ### VOLUME and SNAPSHOT (R85) -/

/-- The old value of a volume field. -/
def Volume.amendValue (v : Volume) : AmendField → Nat
  | .reserveLimit => v.limit
  | .autoExpire => v.autoExpire.toNat
  | .dupEnable => v.dupEnable.toNat
  | .overrideSoft | .overrideHard | .snapshotTag => 0

/-- A volume field written, R70 applied to it (R85). -/
def Volume.amendWrite (v : Volume) (value : Nat) : AmendField → Volume
  | .reserveLimit => { v with limit := value }.settle
  | .autoExpire => { v with autoExpire := value == 1 }
  | .dupEnable => { v with dupEnable := value == 1 }
  | .overrideSoft | .overrideHard | .snapshotTag => v

/-- AMEND of a volume field (R85, R173). -/
def amendVolume (tag : Nat) (q : AmendReq) (f : AmendField) (s : State) : State :=
  if h : q.key < 8 then
    let i : Fin 8 := ⟨q.key, h⟩
    if q.removes then s.refuseAmend tag .badField
    else
      match s.vol i with
      | none => s.refuseAmend tag .noSuch
      | some v =>
        let old := v.amendValue f
        if q.conditionHolds (BitVec.ofNat 32 old) then
          let new := (q.merged (BitVec.ofNat 32 old)).toNat
          if f.isEnable ∧ 1 < new then s.refuseAmend tag .badField
          else
            let change := new != old
            let w := if change then v.amendWrite new f else v
            let s := (s.putVol i (some w)).answer 21 tag .ok
              (.amend old new change (overLimit := w.overLimit))
            if change then s.evaluate i else s
        else s.refuseAmend tag .mismatch
  else s.refuseAmend tag .badField

/-- AMEND of a snapshot's tag (R85, R173). -/
def amendSnapshot (tag : Nat) (q : AmendReq) (s : State) : State :=
  if q.key / 2 ^ 32 = 0 ∨ q.removes then s.refuseAmend tag .badField
  else
    match s.findVol (q.key / 2 ^ 32) with
    | none => s.refuseAmend tag .noSuch
    | some (i, _) =>
      match s.findSnap i (q.key % 2 ^ 32) with
      | none => s.refuseAmend tag .noSuch
      | some x =>
        if q.conditionHolds (BitVec.ofNat 32 x.tag) then
          let new := (q.merged (BitVec.ofNat 32 x.tag)).toNat
          (s.modifySnap i x.epoch fun y => { y with tag := new }).answer 21 tag .ok
            (.amend x.tag new (new != x.tag))
        else s.refuseAmend tag .mismatch

/-- AMEND behind the checks of R166 (R172). -/
def amendRequest (tag : Nat) (q : AmendReq) (s : State) : State :=
  if 4 < q.condition ∨ 1 < q.action then s.refuseAmend tag .badField
  else
    match AmendField.of q.table q.field with
    | none => s.refuseAmend tag .badField
    | some .overrideSoft => amendOwner tag q true s
    | some .overrideHard => amendOwner tag q false s
    | some .snapshotTag => amendSnapshot tag q s
    | some f => amendVolume tag q f s

/-- AMEND (R172). -/
def execAmend (s : State) : Outcome :=
  whenReleased s <| takeRequest 21 parseAmend (.amend) amendRequest

end Sys2Proof.Machine
end

