-- ==== Sys2Proof/Machine/CatalogueCmds.lean ====
section
/-! DEFINITION. The requests of the Snapshot Catalogue (chapters 4 and 5): SNAPSHOT, DELETE_SNAPSHOT,
HOLD, PIN, LOCK_HOLDS, and the step EXPIRY_WAITING_EVALUATION. -/

namespace Sys2Proof.Machine

/-! ### SNAPSHOT (4.3) and the cut (8.3) -/

/-- The snapshot record that SNAPSHOT makes (R74). -/
def State.newSnapshot (s : State) (i : Fin 8) (v : Volume) (kind : SnapKind) (label : Nat) : Snapshot :=
  { slot := i, epoch := v.openEpoch, kind, tag := label, created := s.now, hold := false,
    pin := false, refs := 0, buckets := [] }

/-- The record joins the pool and the open epoch rises by one (R74). -/
def State.makeSnapshot (s : State) (i : Fin 8) (v : Volume) (kind : SnapKind) (label : Nat) : State :=
  (s.setCat { s.cat with snaps := s.cat.snaps ++ [s.newSnapshot i v kind label] }).putVol i
    (some { v with openEpoch := v.openEpoch + 1 })

/-- The cut made with a DUPLICATION snapshot at `epoch` (R146): the send role and its reference move, the
lists are split or merged, the volume becomes SENDING and is tested for its end. -/
def State.cutVolume (s : State) (i : Fin 8) (v : Volume) (epoch : Nat) : State :=
  let s := s.takeRef i epoch
  let s := match v.sendEpoch with
    | some e => s.giveRef i e
    | none => s
  let (w, freed) := v.cutLists
  let s := s.putVol i (some
    { w with openEpoch := epoch + 1, cutDeadline := none, cutDue := false,
             sendEpoch := some epoch, dup := .sending })
  (s.setPool (s.poolFree + freed)).testEnd i

/-- The checks 3 to 7 of SNAPSHOT, the first failure (R73). -/
def State.snapshotCheck (s : State) (v : Volume) (kind : SnapKind) : Option Status :=
  if kind ≠ .duplication ∧ v.dup = .cutPending then some .busy
  else if kind = .duplication ∧ v.dup ≠ .cutPending then some .notExpected
  else if v.openEpoch = maxCount then some .epochExhausted
  else if v.overLimit then some .reserveFull
  else if Config.snapshotSlots ≤ s.cat.snaps.length then some .full
  else none

/-- SNAPSHOT behind the checks of R166 (R73, R74, R146). -/
def snapshotRequest (tag : Nat) (q : SnapshotReq) (s : State) : State :=
  match SnapKind.ofCode q.kind with
  | none => s.answer 6 tag .badField (.snapshot)
  | some kind =>
    if q.volume = 0 then s.answer 6 tag .badField (.snapshot)
    else
      match s.findVol q.volume with
      | none => s.answer 6 tag .noSuch (.snapshot)
      | some (i, v) =>
        match s.snapshotCheck v kind with
        | some status => s.answer 6 tag status (.snapshot)
        | none =>
          let s := s.makeSnapshot i v kind q.label
          if kind = .duplication then
            let s := (s.cutVolume i v v.openEpoch).answer 6 tag .ok (.snapshot v.openEpoch)
            let s := s.dupEndStep i
            (if v.sendEpoch.isSome then s.evaluateIfOver i else s).issuePass
          else s.answer 6 tag .ok (.snapshot v.openEpoch)

/-- SNAPSHOT (R73, R74). -/
def execSnapshot (s : State) : Outcome :=
  whenReleased s <| takeRequest 6 parseSnapshot (.snapshot) snapshotRequest

/-! ### DELETE_SNAPSHOT (4.5) -/

/-- DELETE_SNAPSHOT behind the checks of R166 (R79, R99). -/
def deleteRequest (tag : Nat) (q : DeleteReq) (s : State) : State :=
  if q.volume = 0 then s.answer 7 tag .badField (.deleteSnapshot)
  else
    match s.findVol q.volume with
    | none => s.answer 7 tag .noSuch (.deleteSnapshot)
    | some (i, v) =>
      match s.findSnap i q.epoch with
      | none => s.answer 7 tag .noSuch (.deleteSnapshot)
      | some x =>
        if x.deletable then
          let (d, s) := s.deletionStep i v x
          s.answer 7 tag .ok
            (.deleteSnapshot (freed := d.freed) (moved := d.moved) (receiver := d.receiver))
        else
          s.answer 7 tag .held
            (.deleteSnapshot (hold := x.hold) (pin := x.pin) (refs := x.refs)
              (contexts := (s.restoresOf i x.epoch).length) (send := s.holdsSend i x.epoch)
              (base := s.holdsBase i x.epoch))

/-- DELETE_SNAPSHOT (R79). -/
def execDeleteSnapshot (s : State) : Outcome :=
  whenReleased s <| takeRequest 7 parseDelete (.deleteSnapshot) deleteRequest

/-! ### HOLD, PIN, LOCK_HOLDS (chapter 5) -/

/-- The marks that a completion of HOLD or PIN carries (R92). -/
def Snapshot.marksBody (x : Snapshot) : Body := .marks x.hold x.pin x.refs x.deletable

/-- The part that HOLD and PIN share: the checks 1 and 2 of R92 and R93, `locked` as check 3, the mark
written by `write`, the completion, and the evaluation that a cleared mark starts (R81). -/
def markRequest (kind : Nat) (locked : State → Bool) (read : Snapshot → Bool)
    (write : Snapshot → Bool → Snapshot) (tag : Nat) (q : MarkReq) (s : State) : State :=
  if q.volume = 0 ∨ 1 < q.action then s.answer kind tag .badField (.marks)
  else
    match s.findVol q.volume with
    | none => s.answer kind tag .noSuch (.marks)
    | some (i, _) =>
      match s.findSnap i q.epoch with
      | none => s.answer kind tag .noSuch (.marks)
      | some x =>
        if locked s then s.answer kind tag .locked (.marks)
        else
          let set := q.action == 0
          let s := (s.modifySnap i q.epoch fun y => write y set).answer kind tag .ok
            (write x set).marksBody
          if read x && !set then s.evaluateIfOver i else s

/-- HOLD (R92). -/
def execHold (s : State) : Outcome :=
  whenReleased s <| takeRequest 8 parseMark (.marks)
    (markRequest 8 (fun s => s.cat.lock == .closed) (·.hold) fun x b => { x with hold := b })

/-- PIN (R93): the hold lock does not matter. -/
def execPin (s : State) : Outcome :=
  whenReleased s <| takeRequest 9 parseMark (.marks)
    (markRequest 9 (fun _ => false) (·.pin) fun x b => { x with pin := b })

/-- LOCK_HOLDS behind the checks of R166 (R101). -/
def lockRequest (tag : Nat) (_ : Unit) (s : State) : State :=
  let closes := s.cat.lock != .closed
  let s := if closes then s.setCat { s.cat with lock := .closed, lockClosedSince := true } else s
  s.answer 10 tag .ok (.lockHolds s.cat.lock closes)

/-- LOCK_HOLDS (R101). -/
def execLockHolds (s : State) : Outcome :=
  whenReleased s <| takeRequest 10 parseEmpty (.lockHolds) lockRequest

/-- EXPIRY_WAITING_EVALUATION (R83): with notice room, every volume whose expiry is waiting is evaluated,
in slot order. -/
def execExpiryWaitingEvaluation (s : State) : Outcome :=
  whenReleased s State.evaluateWaiting

end Sys2Proof.Machine
end

