-- ==== Sys2Proof/Machine/DupCmds.lean ====
section
/-! DEFINITION. The requests of the Duplication Scheduler (chapter 8), and its timer and notice steps. -/

namespace Sys2Proof.Machine

/-! ### SENT (8.4) -/

/-- The volume record after a ticket of its own has been answered (R151, R152). A volume is SENDING while
its end is due (R153), so a leftover ticket that fails then raises the failure count and stalls nothing
(log 34). -/
def Volume.answered (v : Volume) (work : Work) (ok : Bool) (retryLimit : Nat) : Volume :=
  let w := { v with outstanding := v.outstanding - 1 }
  if ok then w
  else
    let failures := min (v.failures + 1) 255
    { w with send := (giveBack work v.send).1, failures,
             dup := if v.dup = .sending ∧ !v.endDue ∧ retryLimit < failures then .stalled else v.dup }

/-- A ticket's record freed, its pieces or region returned or given back, and a stall raised (R151,
R152). -/
def State.answerTicket (s : State) (t : Fin 16) (x : Ticket) (ok : Bool) : State :=
  let s := s.putTicket t none
  match s.vol x.slot with
  | none => s.setPool (s.poolFree + x.work.entries)
  | some v =>
    let w := v.answered x.work ok (s.profileOf v).retryLimit
    let freed := if ok then x.work.entries else (giveBack x.work v.send).2
    let s := (s.putVol x.slot (some w)).setPool (s.poolFree + freed)
    if v.dup = .sending ∧ w.dup = .stalled then s.raise .volumeStalled v.id else s

/-- The completion of SENT, from the state after its step (R151). -/
def State.sentBody (s : State) (i : Fin 8) : Body :=
  match s.vol i with
  | none => .sent
  | some v => .sent v.id v.dup (s.backlogOf i v) v.outstanding s.ticketsOut.length

/-- SENT behind the checks of R166 (R151). -/
def sentRequest (tag : Nat) (q : SentReq) (s : State) : State :=
  if 1 < q.result then s.answer 16 tag .badField (.sent)
  else
    match slots16.findSome? fun t =>
        (s.ticket t).bind fun x => if x.number = q.ticket then some (t, x) else none with
    | none => s.answer 16 tag .noSuch (.sent)
    | some (t, x) =>
      let s := s.answerTicket t x (q.result == 0)
      let s := s.answer 16 tag .ok (s.sentBody x.slot)
      (((s.testEnd x.slot).dupEndStep x.slot).closeIfDone.flushEvent).issuePass

/-- SENT (R151). -/
def execSent (s : State) : Outcome :=
  whenReleased s <| takeRequest 16 parseSent (.sent) sentRequest

/-! ### DUPLICATE_NOW (8.4) -/

/-- DUPLICATE_NOW behind the checks of R166 (R154). -/
def duplicateNowRequest (tag : Nat) (volume : Nat) (s : State) : State :=
  if volume = 0 then s.answer 17 tag .badField (.duplicateNow)
  else
    match s.findVol volume with
    | none => s.answer 17 tag .noSuch (.duplicateNow)
    | some (i, v) =>
      if s.dup.window ≠ .opened then s.answer 17 tag .notInWindow (.duplicateNow)
      else if v.dup ≠ .stalled ∧ v.dup ≠ .missed ∧ v.dup ≠ .done then
        s.answer 17 tag .busy (.duplicateNow)
      else
        ((s.putVol i (some { v with dup := .cutPending, failures := 0, cutDue := true })).answer 17
          tag .ok (.duplicateNow .cutPending)).placeCuts

/-- DUPLICATE_NOW (R154). -/
def execDuplicateNow (s : State) : Outcome :=
  whenReleased s <| takeRequest 17 parseNumber2 (.duplicateNow) duplicateNowRequest

/-! ### CLOCK and MINUTE_ADVANCE (8.1) -/

/-- The minute of day set, and the next advance (R140). -/
def State.setMinute (s : State) (minute next : Nat) : State :=
  s.setTime { s.time with minute := some minute, nextAdvance := some next }

/-- CLOCK behind the checks of R166 (R140). -/
def clockRequest (tag : Nat) (minute : Nat) (s : State) : State :=
  if 1439 < minute then s.answer 18 tag .badField (.clock)
  else
    let s := (s.setMinute minute (s.now + 60000)).minuteChanged minute
    (s.answer 18 tag .ok (.clock minute s.dup.window s.time.nextAdvance)).afterMinute

/-- CLOCK (R140). -/
def execClock (s : State) : Outcome :=
  whenReleased s <| takeRequest 18 parseNumber2 (.clock) clockRequest

/-- MINUTE_ADVANCE (R140): the minute rises by one, 1439 is followed by 0, and the next advance is
60,000 ms later. -/
def execMinuteAdvance (s : State) : Outcome :=
  whenReleased s fun s =>
    match s.time.minute, s.time.nextAdvance with
    | some m, some t =>
      if s.passed (some t) then
        let m' := (m + 1) % 1440
        ((s.setMinute m' (t + 60000)).minuteChanged m').afterMinute
      else s
    | _, _ => s

/-- WINDOW_CLOSED (R143). -/
def execWindowClosed (s : State) : Outcome :=
  whenReleased s fun s => s.closeIfDone.flushEvent

/-! ### Cuts -/

/-- CUT_NOTICE (R145): the CUT notices that are due are placed while room lasts. -/
def execCutNotice (s : State) : Outcome := whenReleased s State.placeCuts

/-- CUT_TIMEOUT (R147): a CUT_PENDING volume whose cut deadline has come becomes MISSED. -/
def execCutTimeout (slot : Fin 8) (s : State) : Outcome :=
  whenReleased s fun s =>
    match s.vol slot with
    | none => s
    | some v =>
      if v.dup = .cutPending ∧ s.passed v.cutDeadline then
        ((s.putVol slot (some { v with dup := .missed, cutDeadline := none })).raise .cutMissed
          v.id).flushEvent
      else s

/-! ### Issue, pacing, suspension, ends -/

/-- ISSUE_PASS (R149). -/
def execIssuePass (s : State) : Outcome := whenReleased s State.issuePass

/-- The gain of one millisecond, held at the cap (R157). -/
def State.gainTokens (s : State) : State :=
  (s.setTime { s.time with gainOwed := false }).setDup
    { s.dup with tokens := min (s.dup.tokens + s.dup.share) Config.tokenCap }

/-- TOKEN_GAIN (R157), once for each millisecond; the accumulator reaching the head's cost starts a pass
(R149). -/
def execTokenGain (s : State) : Outcome :=
  whenReleased s fun s => if s.time.gainOwed then s.gainTokens.issuePass else s

/-- DEFERRAL_DEADLINE (R160): SUSPENDED if a restore is running, else ISSUING. -/
def execDeferralDeadline (s : State) : Outcome :=
  whenReleased s fun s =>
    if s.dup.suspension = .deferred ∧ s.passed s.dup.deferral then
      s.setDup { s.dup with
        suspension := if 0 < s.dup.running then .suspended else .issuing, deferral := none }
    else s

/-- DUP_END_STEP (R153). -/
def execDupEndStep (slot : Fin 8) (s : State) : Outcome :=
  whenReleased s fun s => s.dupEndStep slot

end Sys2Proof.Machine
end

