-- ==== Sys2Proof/Machine/InspectOps.lean ====
section
/-! DEFINITION. INSPECT (9.4): the contents that each table's rule lists, formed from the state as it
stands, and their cutting into parts. The forms that the spec leaves open are in log 21. -/

namespace Sys2Proof.Machine

/-- Fields as pairs of width and value (R179). -/
abbrev Fields := List (Nat × Nat)

/-- Flags in bits 0 upwards of one byte (R179). -/
def flagByte (flags : List Bool) : Nat := flags.foldr (fun b n => b.toNat + 2 * n) 0

/-! ### OWNER (R25, R179) -/

/-- One contribution of an owner record: station, blocks, generation (R179). -/
def Contribution.fields (c : Contribution) : Fields :=
  [(1, c.station.val), (4, c.blocks), (2, c.generation)]

/-- The owner record as INSPECT returns it, by the layout of R179. -/
def State.ownerFields (s : State) (o : Owner) : Fields :=
  let base := s.baseLimits o
  let limits := s.effectiveLimits o
  let stale := o.contributions.map s.stale
  [(1, 1), (1, o.cls.val), (1, (s.quotaState o).code),
    (1, flagByte [o.overflow, o.override.isSome, o.grace.isSome, o.warmUp.isSome,
      o.reportTime.isSome, s.reportDue o, s.overdue o]),
    (1, flagByte [s.incomplete o, s.warming o, o.overflow, stale.any id]),
    (1, o.contributions.length), (1, flagByte stale), (1, 0),
    (4, o.id.toNat), (4, o.used), (4, o.reserved), (4, o.view), (4, base.soft), (4, base.hard),
    (4, limits.soft), (4, limits.hard), (6, timeOrZero o.grace), (6, timeOrZero o.warmUp),
    (6, timeOrZero o.reportTime), (6, o.lastCharge), (4, o.lastReported)] ++
    o.contributions.flatMap Contribution.fields ++
    List.replicate (Config.contributionSlots - o.contributions.length) (7, 0)

/-! ### RESERVATION (R46) -/

/-- A reservation entry (R46). -/
def Reservation.fields (e : Reservation) : Fields :=
  let (origin, context) := match e.origin with
    | .write => (0, 0)
    | .restore c => (1, c.val)
  [(2, e.handle), (4, e.owner.toNat), (4, e.blocks), (2, e.volume), (6, timeOrZero e.lease),
    (1, origin), (1, context), (6, e.grantTime)]

/-! ### PEER (R67) -/

/-- The own link summary (R67). -/
def State.linkSummary (s : State) : Fields :=
  let l := s.link
  [(1, s.station.val), (2, l.generation), (1, l.state.code), (1, l.expiries), (1, l.announceSlot.code),
    (1, l.usageSlot.code), (1, l.attempts), (1, l.sweep.isSome.toNat),
    (1, (l.sweep.map (·.station.val)).getD 0),
    (4, ((l.sweep.bind (·.cursor)).map (·.toNat)).getD 0)]

/-- A peer entry with its stale deadline (R60, R67). R60 lists the announced mark last in the entry and
R67 names it again behind the stale deadline: it is sent once, in the place of R60 (log 21). -/
def State.peerFields (s : State) (p : Peer) : Fields :=
  [(1, p.state.code), (2, p.generation), (1, p.part.code), (1, p.window.toNat), (4, p.backlog),
    (4, p.share), (2, p.ownerCount), (6, timeOrZero p.heard), (1, p.announced.toNat),
    (6, timeOrZero (s.staleDeadline p))]

/-! ### VOLUME (R90, R103, R139, R161) -/

/-- The fields of R69 (R90). -/
def Volume.catalogueFields (v : Volume) : Fields :=
  [(2, v.id), (4, v.size), (4, v.openEpoch), (4, v.limit), (1, v.autoExpire.toNat),
    (1, v.dupEnable.toNat), (1, v.profile.val), (4, v.retained), (4, v.base.getD 0),
    (1, v.overReported.toNat), (1, v.expiryWaiting.toNat)]

/-- The values derived for a volume and the hold lock (R90, R103). -/
def State.volumeDerived (s : State) (i : Fin 8) (v : Volume) : Fields :=
  [(1, v.overLimit.toNat), (2, (s.snapsOf i).length), (4, (s.oldest i).getD 0),
    (4, (s.newest i).getD 0), (4, (s.candidate i).getD 0), (2, s.cat.snaps.length),
    (1, s.cat.lock.code), (1, s.cat.lockCause.code), (1, s.cat.lockClosedSince.toNat)]

/-- The change lists of a volume and the pool's free count (R139). -/
def State.listFields (s : State) (i : Fin 8) (v : Volume) : Fields :=
  let scan := match v.send with
    | .extents l => [(1, 0), (2, l.length), (4, blockTotal l), (4, 0), (2, 0), (1, 0)]
    | .scan cursor =>
      [(1, 1), (2, 0), (4, 0), (4, cursor), (2, ceilDiv v.size Config.regionBlocks),
        (1, (s.scanComplete i v).toNat)]
  let pieces := (s.ticketsOf i).flatMap fun t =>
    match t.work with
    | .extents l => l
    | .scan _ _ => []
  [(1, v.fullScan.toNat), (2, v.current.length), (4, blockTotal v.current)] ++ scan ++
    [(1, pieces.length), (4, blockTotal pieces), (2, s.poolFree)]

/-- The duplication fields of a volume and the values derived from them (R144, R161). The estimate is a
presence byte and 6 bytes, and the position in the serving order is counted from 1, with 0 for a volume
that is not in it (log 21). -/
def State.duplicationFields (s : State) (i : Fin 8) (v : Volume) : Fields :=
  let estimate := if v.dup = .sending then s.estimate i v else none
  let position := s.servingOrder.findIdx? fun x => x.1 == i
  let tickets := s.ticketsOf i
  [(1, v.dup.code), (4, v.sendEpoch.getD 0), (1, v.failures), (6, timeOrZero v.cutDeadline),
    (1, v.cutDue.toNat), (1, v.endDue.toNat), (1, v.atRisk.toNat), (1, v.outstanding),
    (4, s.backlogOf i v), (1, estimate.isSome.toNat), (6, estimate.getD 0),
    (1, (position.map (· + 1)).getD 0), (1, tickets.length)] ++
    tickets.map fun t => (2, t.number)

/-- The scheduler summary (R161). The minute of day is a presence byte and 2 bytes (log 21). -/
def State.schedulerSummary (s : State) : Fields :=
  let d := s.dup
  [(1, d.window.code), (2, s.cfg.windowStart), (2, s.cfg.windowEnd), (1, s.time.minute.isSome.toNat),
    (2, s.time.minute.getD 0), (6, timeOrZero s.time.nextAdvance), (4, s.ownBacklog),
    (4, min s.peerBacklog maxCount), (4, d.share), (4, d.tokens), (1, d.suspension.code),
    (6, timeOrZero d.lastResume), (6, timeOrZero d.deferral), (1, d.running), (2, d.ticketCounter),
    (1, s.ticketsOut.length)]

/-- The record of a volume in its slot (R90, R139, R161). -/
def State.volumeFields (s : State) (i : Fin 8) (v : Volume) : Fields :=
  v.catalogueFields ++ s.volumeDerived i v ++ s.listFields i v ++ s.duplicationFields i v

/-! ### SNAPSHOT (R90, R103) -/

def State.snapshotFields (s : State) (i : Fin 8) (x : Snapshot) : Fields :=
  let contexts := s.restoresOf i x.epoch
  [(1, x.slot.val), (4, x.epoch), (1, x.kind.code), (4, x.tag), (6, x.created), (1, x.hold.toNat),
    (1, x.pin.toNat), (1, x.refs), (1, x.buckets.length)] ++
    (x.buckets.flatMap fun b => [(4, b.birth), (4, b.blocks)]) ++
    [(4, bucketTotal x.buckets), (1, x.deletable.toNat), (1, x.eligible.toNat),
      (4, (s.nextOlder i x.epoch).getD 0), (1, contexts.length)] ++
    (contexts.map fun c => (1, c.val)) ++
    [(1, (s.holdsSend i x.epoch).toNat), (1, (s.holdsBase i x.epoch).toNat)]

/-! ### RESTORE (R122) -/

/-- One item of a context record (R104). -/
def Item.fields (m : Item) : Fields :=
  [(4, m.source), (2, m.length), (4, m.birth), (4, m.target), (1, m.state.code)]

/-- The record of a context that is not FREE (R104, R122). -/
def State.contextFields (s : State) (x : Context) : Fields :=
  [(1, x.state.shown.code), (2, x.job), (4, x.owner.toNat), (1, x.tracked.toNat),
    (2, s.volumeId x.sourceSlot), (4, x.sourceEpoch), (2, s.volumeId x.targetSlot), (1, x.k),
    (1, x.items.length)] ++ x.items.flatMap Item.fields ++
    [(6, timeOrZero x.deadline), (2, x.handle.getD 0), (1, x.outstanding), (1, x.failureSeen.toNat),
      (1, x.endDue.toNat), (1, x.timeoutDue.toNat), (4, x.charged),
      (4, ((x.handle.bind s.entryByHandle).map (·.blocks)).getD 0)]

/-- The contexts that count as running restores (R105). -/
def State.runningContexts (s : State) : List (Fin 4) :=
  slots4.filter fun c =>
    match s.context c with
    | some x => x.state != .assembling
    | none => false

/-- The controller summary (R122). -/
def State.restoreSummary (s : State) : Fields :=
  [(2, s.rsc.jobCounter), (1, s.rsc.lastServed.val), (1, s.cfg.copyDepth),
    (1, s.runningContexts.length)]

/-! ### CLASS, WINDOW, PROFILE (R161, R171) and the start-up summary (R182) -/

/-- A class record, its owner records, the station-wide values and the straps (R171). -/
def State.classFields (s : State) (i : Fin 8) : Fields :=
  let c := s.classRec i
  let g := s.cfg
  [(4, c.soft), (4, c.hard), (2, c.grace), (4, c.margin), (4, c.threshold), (2, c.lease),
    (2, (s.owners.filter (·.cls == i)).length), (4, g.uplink), (2, g.minShare), (4, g.stationCap),
    (1, g.announceInterval), (1, g.staleMultiple), (2, g.sweepPeriod), (1, g.assemblyTimeout),
    (2, g.cutTimeout), (1, g.copyDepth), (2, g.minProgress), (2, g.windowStart), (2, g.windowEnd),
    (2, g.scanRatio), (1, g.lockAtStart.code), (1, s.station.val), (1, s.maint.toNat)]

/-- A decode window (R171). -/
def Window.fields (w : Window) : Fields :=
  [(4, w.base.toNat), (4, w.mask.toNat), (1, w.cls.val), (1, w.enable.toNat)]

/-- A send profile (R161). -/
def Profile.fields (p : Profile) : Fields :=
  [(2, p.maxBlocks), (1, p.depth), (2, p.overhead), (1, p.retryLimit)]

/-- The start-up summary: the part state, the stage that failed, the field number, the station number
and the MAINT strap (R182). -/
def State.startSummary (s : State) : Fields :=
  let (stage, field) := match s.checkFailure with
    | some (.range n) => (1, n)
    | _ => (0, 0)
  [(1, s.part.code), (1, stage), (1, field), (1, s.station.val), (1, s.maint.toNat)]

/-! ### Answers (R170) -/

/-- What an INSPECT finds: a key out of range, no record with the summary fields of its table, or the
contents of a record. -/
inductive Found
  | badKey
  | missing (summary : Fields)
  | contents (fields : Fields)
  deriving DecidableEq, Repr

/-- The record of an index below n, given the fields there. -/
def foundAt (n key : Nat) (f : Fin n → Found) : Found :=
  if h : key < n then f ⟨key, h⟩ else .badKey

/-- The tables CLASS, WINDOW and PROFILE hold values from an image that passed (R182). -/
def State.imageTable (s : State) (fields : Fields) : Found :=
  if s.image.isSome then .contents fields else .missing s.startSummary

/-- The record that a table and a key name (R170). -/
def State.find (s : State) (table key : Nat) : Found :=
  match table with
  | 1 =>
    if invalidOwner (BitVec.ofNat 32 key) ∨ maxCount < key then .badKey
    else
      match s.findOwner (BitVec.ofNat 32 key) with
      | none => .missing []
      | some o => .contents (s.ownerFields o)
  | 2 =>
    if key < Config.reservationSlots then
      match s.entryInSlot key with
      | none => .missing [(2, s.adm.handleCounter)]
      | some e => .contents (e.fields ++ [(2, s.adm.handleCounter)])
    else .badKey
  | 3 => foundAt 16 key fun i => .contents (s.peerFields (s.peer i) ++ s.linkSummary)
  | 4 => foundAt 8 key fun i =>
    match s.vol i with
    | none => .missing s.schedulerSummary
    | some v => .contents (s.volumeFields i v ++ s.schedulerSummary)
  | 5 =>
    let volume := key / 2 ^ 32
    if volume = 0 then .badKey
    else
      match s.findVol volume with
      | none => .missing []
      | some (i, _) =>
        match s.findSnap i (key % 2 ^ 32) with
        | none => .missing []
        | some x => .contents (s.snapshotFields i x)
  | 6 => foundAt 4 key fun c =>
    match s.context c with
    | none => .missing s.restoreSummary
    | some x => .contents (s.contextFields x ++ s.restoreSummary)
  | 7 => foundAt 8 key fun i => s.imageTable (s.classFields i)
  | 8 => foundAt 8 key fun i => s.imageTable (s.cfg.windows[i]).fields
  | 9 => foundAt 4 key fun i => s.imageTable (s.cfg.profiles[i]).fields
  | _ => .badKey

/-- The bytes of one completion behind its header (R170). -/
abbrev partBytes : Nat := 120

/-- The number of parts of contents: at least 1 (R170). -/
def partCount (bytes : Bytes) : Nat := max 1 (ceilDiv bytes.length partBytes)

/-- One part of contents (R170). -/
def partOf (bytes : Bytes) (part : Nat) : Bytes := (bytes.drop (part * partBytes)).take partBytes

/-- The state that an INSPECT answers from: an owner record is re-evaluated first (R25). -/
def State.inspected (s : State) (q : InspectReq) : State :=
  if q.table = 1 ∧ q.key ≤ maxCount then s.touchOwner (BitVec.ofNat 32 q.key) fun o => o else s

/-- INSPECT behind the checks of R166, by the checks of R170. A request that a check refuses changes
nothing, the re-evaluation of R25 included (00_scope.md, 4). NO_SUCH carries the summary of its table
whole, whatever the part number (log 21). -/
def inspectRequest (tag : Nat) (q : InspectReq) (s : State) : State :=
  if q.table < 1 ∨ 9 < q.table ∨ 7 < q.part then s.answer 20 tag .badField (.inspect)
  else
    let u := s.inspected q
    match u.find q.table q.key with
    | .badKey => s.answer 20 tag .badField (.inspect)
    | .missing summary => s.answer 20 tag .noSuch (.inspect (fieldBytes summary))
    | .contents fields =>
      let bytes := fieldBytes fields
      if partCount bytes ≤ q.part then s.answer 20 tag .badField (.inspect)
      else
        u.answerPart 20 tag q.part (partCount bytes) .ok (.inspect (partOf bytes q.part))

/-- INSPECT (R170). -/
def execInspect (s : State) : Outcome :=
  whenReleased s <| takeRequest 20 parseInspect (.inspect) inspectRequest

end Sys2Proof.Machine
end

