-- ==== Sys2Proof/Machine/LinkCmds.lean ====
section
/-! DEFINITION. The events of the station link and the steps of the Link Controller (chapter 3). -/

namespace Sys2Proof.Machine

/-! ### Timers (3.1, 3.5) -/

/-- What an announce-timer expiry does to the slots (R48, R49): in LISTENING it is counted, and the second
makes the link ACTIVE and is handled as an expiry in ACTIVE; in ACTIVE the ANNOUNCE slot is filled and a
USAGE frame is composed. -/
def State.announceSlots (s : State) : State :=
  let s :=
    if s.link.state = .listening then
      let n := s.link.expiries + 1
      s.setLink { s.link with expiries := n,
                              state := if 2 ≤ n then .active else .listening }
    else s
  if s.link.state = .active then s.fillAnnounce.composeUsage.takeSlot else s

/-- ANNOUNCE_TIMER_EXPIRY (R49): the share is recomputed, which is followed by the AT_RISK test and an
issue pass (R156), and the slots are served. -/
def execAnnounceTimerExpiry (s : State) : Outcome :=
  whenReleased s fun s =>
    match s.link.announceNext with
    | none => s
    | some t =>
      if s.passed (some t) then
        let next := t + secondsMs s.cfg.announceInterval
        let s := s.setLink { s.link with announceNext := some next }
        (s.recomputeShare.testAtRisk.flushEvent.issuePass).announceSlots
      else s

/-- PEER_STALE_DEADLINE (R63): a LIVE peer not heard within the stale limit becomes STALE. -/
def execPeerStaleDeadline (station : Fin 16) (s : State) : Outcome :=
  whenReleased s fun s =>
    let p := s.peer station
    if s.passed (s.staleDeadline p) then s.putPeer station { p with state := .stale } else s

/-! ### Attempts (3.2) -/

/-- TRANSMIT_ATTEMPT_START (R50): the pair has been idle for 96 bit times and no back-off is running; the
transmitter starts driving the frame it holds, and the attempt is counted. -/
def execTransmitAttemptStart (s : State) : Outcome :=
  whenReleased s fun s =>
    match s.heldFrame with
    | none => s
    | some frame =>
      if s.link.backoff.isNone ∧ s.link.onPair.isNone then
        s.setLink { s.link with
          attempts := s.link.attempts + 1, onPair := some frame, replaced := false }
      else s

/-- The frame has left the transmitter after a successful attempt (R50, R53, R54). -/
def State.frameSent (s : State) : State :=
  if s.link.announceSlot = .held then
    s.setLink { s.link with
      announceSlot := if s.link.replaced then .waiting else .empty,
      attempts := 0, onPair := none, replaced := false }
  else
    let s := s.recordSend
    (s.setLink { s.link with
      usageSlot := .empty, usageEntries := [], attempts := 0, onPair := none,
      replaced := false }).composeUsage

/-- ATTEMPT_SUCCESS (R50): the last bit has been read back correctly; a free transmitter then takes the
next slot (R55). -/
def execAttemptSuccess (s : State) : Outcome :=
  whenReleased s fun s => if s.link.onPair.isSome then s.frameSent.takeSlot else s

/-- The tenth attempt has collided: the frame is dropped (R52). -/
def State.giveUp (s : State) : State :=
  let s :=
    if s.link.announceSlot = .held then s.setLink { s.link with announceSlot := .empty }
    else s.setLink { s.link with usageSlot := .empty, usageEntries := [] }
  let s := s.setLink { s.link with attempts := 0, onPair := none, replaced := false }
  (s.raise .linkGiveup s.station).flushEvent.takeSlot

/-- COLLISION (R51, R52): the attempt ends; a tenth drops the frame, any other draws a back-off. -/
def execCollision (s : State) : Outcome :=
  whenReleased s fun s =>
    if s.link.onPair.isSome then
      if 10 ≤ s.link.attempts then s.giveUp
      else
        let l := s.link
        s.setLink { l with onPair := none, replaced := false, backoff := some l.drawBackoff,
                           rng := { l.rng with drawn := l.rng.drawn + 1 } }
    else s

/-- BACKOFF_EXPIRY (R51): the back-off has run out. -/
def execBackoffExpiry (s : State) : Outcome :=
  whenReleased s fun s => s.setLink { s.link with backoff := none }

/-! ### Frames received (3.4, 3.5) -/

/-- A frame's header and body as received (R58, R179). -/
structure Frame where
  kind : Nat
  source : Nat
  generation : Nat
  /-- the state byte of an ANNOUNCE or the entry count of a USAGE frame -/
  fifth : Nat
  deriving DecidableEq, Repr

def frameOf (burst : Bytes) : Frame :=
  { kind := fieldAt burst 0 1, source := fieldAt burst 1 1, generation := fieldAt burst 2 2,
    fifth := fieldAt burst 4 1 }

/-- The length check passes (R58). -/
def Frame.lengthOk (f : Frame) (length : Nat) : Bool :=
  (f.kind == 1 && length == 18) ||
    (f.kind == 2 && 1 ≤ f.fifth && f.fifth ≤ 24 && length == 7 + 8 * f.fifth)

/-- The CRC check passes (R58, R179). -/
def crcOk (burst : Bytes) : Bool :=
  crc16 (burst.take (burst.length - 2)) == fieldAt burst (burst.length - 2) 2

/-- The field check passes (R58). -/
def Frame.fieldsOk (f : Frame) : Bool :=
  if f.kind = 1 then (f.fifth == 1 && f.generation == 0) || (f.fifth == 2 && f.generation != 0)
  else f.generation != 0

/-- The entries of a USAGE frame in frame order (R57, R179). -/
def usageEntriesOf (burst : Bytes) (count : Nat) : List (OwnerId × Nat) :=
  (List.range count).map fun i => (ownerAt burst (5 + 8 * i), fieldAt burst (9 + 8 * i) 4)

/-- The peer entry after a valid frame, the entries not yet handed on (R61). -/
def Peer.hear (p : Peer) (f : Frame) (burst : Bytes) (now : Nat) : Peer :=
  let announced := if p.state = .live then p.announced else false
  if f.kind = 1 then
    { state := .live, generation := f.generation,
      part := if f.fifth = 2 then .serving else .loading,
      window := fieldAt burst 5 1 != 0, backlog := fieldAt burst 6 4, share := fieldAt burst 10 4,
      ownerCount := fieldAt burst 14 2, heard := some now, announced := true }
  else { p with state := .live, generation := f.generation, heard := some now, announced }

/-- A valid frame from a peer (R61). EVENT_PENDING, when an entry of a USAGE frame makes it due, is placed
behind the last entry (log 4). -/
def State.peerFrame (s : State) (i : Fin 16) (f : Frame) (burst : Bytes) : State :=
  let p := s.peer i
  if p.state = .forgetting then s
  else
    let s := s.putPeer i (p.hear f burst s.now)
    if f.kind = 2 then
      ((usageEntriesOf burst f.fifth).foldl
        (fun s e => s.usageEntry i f.generation e) s).flushEvent
    else s

/-- A valid frame from the own station number: a station conflict (R59). -/
def State.stationConflict (s : State) : State :=
  let s := (s.raise .stationConflict s.station).flushEvent
  if s.link.state = .listening ∨ s.link.state = .active then
    s.setLink { s.link.cutOff with state := .mute }
  else s

/-- LINK_ERROR with a subject (R58). -/
def State.linkError (s : State) (subject : Nat) : State := (s.raise .linkError subject).flushEvent

/-- FRAME_RECEIVED (R58, R59, R61): a burst that the part did not drive. A source station above 15 names
no peer entry and changes nothing (log 15). -/
def execFrameReceived (burst : List (BitVec 8)) (s : State) : Outcome :=
  whenReleased s fun s =>
    if s.link.state = .off ∨ burst.length < 5 then s
    else
      let f := frameOf burst
      if !f.lengthOk burst.length ∨ !crcOk burst then s.linkError s.station
      else if !f.fieldsOk then s.linkError f.source
      else if f.source = s.station then s.stationConflict
      else if h : f.source < 16 then s.peerFrame ⟨f.source, h⟩ f burst
      else s

/-! ### FORGET_STATION and its sweep (3.6) -/

/-- FORGET_STATION behind the checks of R166 (R64). A request that passes is not completed here. -/
def forgetRequest (tag : Nat) (station : Nat) (s : State) : State :=
  if h : station < 16 then
    let i : Fin 16 := ⟨station, h⟩
    if i = s.station then s.answer 19 tag .badField (.forgetStation)
    else if s.link.sweep.isSome then s.answer 19 tag .busy (.forgetStation)
    else if (s.peer i).state = .live then s.answer 19 tag .peerLive (.forgetStation)
    else
      let s := s.putPeer i { s.peer i with state := .forgetting }
      s.setLink { s.link with sweep := some { station := i, cursor := none, removed := 0, tag } }
  else s.answer 19 tag .badField (.forgetStation)

/-- FORGET_STATION (R64). -/
def execForgetStation (s : State) : Outcome :=
  whenReleased s <| takeRequest 19 parseNumber1 (.forgetStation) forgetRequest

/-- One visit of the sweep: the next record loses the station's contribution and its overflow flag and is
re-evaluated; a record without one is passed (R65). -/
def State.sweepVisit (s : State) (w : Sweep) (o : Owner) : State :=
  let found := o.contributions.any (·.station == w.station)
  let s := s.setLink { s.link with
    visitOwed := false,
    sweep := some { w with cursor := some o.id,
                           removed := w.removed + if found then 1 else 0 } }
  if found then
    s.touchOwner o.id fun o =>
      { o with contributions := o.contributions.filter (·.station != w.station),
               overflow := false }
  else s

/-- FORGET_SWEEP_VISIT (R65), once for each millisecond. -/
def execForgetSweepVisit (s : State) : Outcome :=
  whenReleased s fun s =>
    match s.link.sweep with
    | none => s
    | some w =>
      match s.sweepNext w with
      | none => s
      | some o => if s.link.visitOwed then s.sweepVisit w o else s

/-- The sweep end, the peer's change to ABSENT and the completion, as one step (R66). -/
def State.sweepEnd (s : State) (w : Sweep) : State :=
  let s := s.putPeer w.station Peer.reset
  (s.setLink { s.link with sweep := none, visitOwed := false }).answer 19 w.tag .ok
    (.forgetStation w.station w.removed)

/-- FORGET_SWEEP_END (R66): when the last record has been visited and the completion queue has a free
slot. -/
def execForgetSweepEnd (s : State) : Outcome :=
  whenReleased s fun s =>
    match s.link.sweep with
    | none => s
    | some w =>
      if (s.sweepNext w).isNone ∧ s.port.completions.length < Config.completionSlots then
        s.sweepEnd w
      else s

end Sys2Proof.Machine
end

