-- ==== Sys2Proof/Machine/LoadCmds.lean ====
section
/-! DEFINITION. The reload requests (10.4, 10.5): LOAD_VOLUME, LOAD_SNAPSHOT, LOAD_OWNER, LOAD_DONE. -/

namespace Sys2Proof.Machine

/-! ### LOAD_VOLUME (R184, R86) -/

/-- The checks 1 and 2 of LOAD_VOLUME pass (R184); an enable or presence byte is 0 or 1, and the bytes of
an absent base epoch are not read (log 16). -/
def LoadVolumeReq.fieldsOk (q : LoadVolumeReq) : Bool :=
  q.volume != 0 && q.size != 0 && q.openEpoch != 0 && q.profile ≤ 3 && q.autoExpire ≤ 1 &&
    q.dupEnable ≤ 1 && q.basePresent ≤ 1 &&
    (q.basePresent == 0 || (q.base != 0 && q.base < q.openEpoch))

/-- The volume record that LOAD_VOLUME makes (R86, R138, R144). -/
def LoadVolumeReq.record (q : LoadVolumeReq) : Volume :=
  { id := q.volume, size := q.size, openEpoch := q.openEpoch, limit := q.limit,
    autoExpire := q.autoExpire == 1, dupEnable := q.dupEnable == 1, profile := Fin.ofNat 4 q.profile,
    retained := 0, base := if q.basePresent = 1 then some q.base else none, overReported := false,
    expiryWaiting := false, current := [], send := .extents [], fullScan := true, dup := .idle,
    sendEpoch := none, failures := 0, cutDeadline := none, cutDue := false, endDue := false,
    atRisk := false, outstanding := 0 }

/-- LOAD_VOLUME behind the checks of R166 (R184). -/
def loadVolumeRequest (tag : Nat) (q : LoadVolumeReq) (s : State) : State :=
  if !q.fieldsOk ∨ (s.findVol q.volume).isSome then s.answer 24 tag .badField (.loadVolume)
  else
    match slots8.find? fun i => (s.vol i).isNone with
    | none => s.answer 24 tag .full (.loadVolume)
    | some i => (s.putVol i (some q.record)).answer 24 tag .ok (.loadVolume i.val)

/-- LOAD_VOLUME (R184). -/
def execLoadVolume (s : State) : Outcome :=
  whenReleased s <| takeRequest 24 parseLoadVolume (.loadVolume) loadVolumeRequest

/-! ### LOAD_SNAPSHOT (R185, R87) -/

/-- The births of a list strictly ascend. -/
def birthsAscend : List Bucket → Bool
  | [] => true
  | [_] => true
  | x :: y :: rest => x.birth < y.birth && birthsAscend (y :: rest)

/-- The retained list of a load passes its checks (R87). -/
def loadListOk (epoch retained : Nat) (l : List Bucket) : Bool :=
  birthsAscend l && l.all (fun b => b.birth ≤ epoch && b.blocks != 0) &&
    bucketTotal l + retained ≤ maxCount

/-- The kind in bits 1 to 0 of the byte that it shares with the hold in bit 7; none for a code that is
none of the three, or with another bit set (R179; log 16). -/
def LoadSnapshotReq.kind (q : LoadSnapshotReq) : Option SnapKind := SnapKind.ofCode (q.kindHold % 128)

/-- The snapshot record that LOAD_SNAPSHOT makes (R87, R97). -/
def State.loadedSnapshot (s : State) (i : Fin 8) (v : Volume) (kind : SnapKind)
    (q : LoadSnapshotReq) : Snapshot :=
  { slot := i, epoch := q.epoch, kind, tag := q.label, created := s.now,
    hold := 128 ≤ q.kindHold, pin := false, refs := if v.base = some q.epoch then 1 else 0,
    buckets := q.buckets }

/-- LOAD_SNAPSHOT behind the checks of R166 (R185). -/
def loadSnapshotRequest (tag : Nat) (q : LoadSnapshotReq) (s : State) : State :=
  match q.kind with
  | none => s.answer 25 tag .badField (.loadSnapshot)
  | some kind =>
    if q.volume = 0 ∨ q.epoch = 0 then s.answer 25 tag .badField (.loadSnapshot)
    else
      match s.findVol q.volume with
      | none => s.answer 25 tag .noSuch (.loadSnapshot)
      | some (i, v) =>
        if v.openEpoch ≤ q.epoch ∨ q.epoch ≤ (s.newest i).getD 0 ∨
            !loadListOk q.epoch v.retained q.buckets then
          s.answer 25 tag .badField (.loadSnapshot)
        else if Config.snapshotSlots ≤ s.cat.snaps.length then
          s.answer 25 tag .full (.loadSnapshot)
        else
          let retained := v.retained + bucketTotal q.buckets
          let s := s.setCat
            { s.cat with snaps := s.cat.snaps ++ [s.loadedSnapshot i v kind q] }
          (s.putVol i (some { v with retained })).answer 25 tag .ok (.loadSnapshot retained)

/-- LOAD_SNAPSHOT (R185). -/
def execLoadSnapshot (s : State) : Outcome :=
  whenReleased s <| takeRequest 25 parseLoadSnapshot (.loadSnapshot) loadSnapshotRequest

/-! ### LOAD_OWNER (R186, R22) -/

/-- The override of a LOAD_OWNER (R179); the bytes of an absent one are not read (log 16). -/
def LoadOwnerReq.limits (q : LoadOwnerReq) : Option Limits :=
  if q.overridePresent = 1 then some { soft := q.soft, hard := q.hard } else none

/-- The record that LOAD_OWNER makes (R22). -/
def State.loadedOwner (s : State) (q : LoadOwnerReq) (cls : Fin 8) : Owner :=
  { id := q.owner, cls, used := q.used, reserved := 0, contributions := [], overflow := false,
    override := q.limits, grace := none, graceTaken := false, warmUp := none, lastReported := 0,
    reportTime := none, lastCharge := s.now }

/-- The table after a LOAD_OWNER of a tracked owner; none when a new record finds no room (R22). -/
def State.loadOwner (s : State) (q : LoadOwnerReq) (cls : Fin 8) : Option State :=
  match s.findOwner q.owner with
  | some _ => some <| s.touchOwner q.owner fun o =>
      { o with used := q.used, override := q.limits, lastCharge := s.now }
  | none => s.addOwner (s.reevaluate (s.loadedOwner q cls))

/-- LOAD_OWNER behind the checks of R166 (R186). -/
def loadOwnerRequest (tag : Nat) (q : LoadOwnerReq) (s : State) : State :=
  if invalidOwner q.owner ∨ 1 < q.overridePresent then s.answer 26 tag .badField (.loadOwner)
  else
    match s.classOf q.owner with
    | none => s.answer 26 tag .untracked (.loadOwner)
    | some cls =>
      match s.loadOwner q cls with
      | none => s.answer 26 tag .full (.loadOwner)
      | some s =>
        s.answer 26 tag .ok (.loadOwner (((s.findOwner q.owner).map (·.cls.val)).getD 0)
          s.owners.length)

/-- LOAD_OWNER (R186). -/
def execLoadOwner (s : State) : Outcome :=
  whenReleased s <| takeRequest 26 parseLoadOwner (.loadOwner) loadOwnerRequest

/-! ### LOAD_DONE (R187) -/

/-- A volume's base epoch is present and names no snapshot of it (R187 step 2). -/
def State.baseMissing (s : State) (i : Fin 8) (v : Volume) : Bool :=
  match v.base with
  | none => false
  | some e => (s.findSnap i e).isNone

/-- The slots whose base is removed at LOAD_DONE (R187 step 2). -/
def State.missingBases (s : State) : List (Fin 8) :=
  slots8.filter fun i =>
    match s.vol i with
    | none => false
    | some v => s.baseMissing i v

/-- The base epochs that were never loaded are removed (R187 step 2). -/
def State.removeBases (s : State) : State :=
  s.missingBases.foldl (fun s i => s.modifyVol i fun v => { v with base := none, fullScan := true }) s

/-- The hold lock that LOAD_DONE fixes, and what fixed it (R100, R103). -/
def lockAtLoadDone (cfg : Image) (maint : Bool) : HoldLock × LockCause :=
  if cfg.lockAtStart = .opened then (.opened, .image)
  else if maint then (.opened, .strap)
  else (.closed, .image)

/-- Every record starts its warm-up and is re-evaluated (R23). -/
def State.warmUpAll (s : State) : State :=
  let deadline := s.now + secondsMs s.cfg.sweepPeriod
  s.setOwners (s.owners.map fun o => s.reevaluate { o with warmUp := some deadline })

/-- The own ANNOUNCE is owed and a USAGE frame is composed, if the link is ACTIVE (R187 step 7). -/
def State.announceServing (s : State) : State :=
  if s.link.state = .active then s.fillAnnounce.composeUsage.takeSlot else s

/-- The completion of LOAD_DONE (R187). -/
def State.loadDoneBody (s : State) (basesRemoved : Nat) : Body :=
  .loadDone s.link.generation (slots8.filter fun i => (s.vol i).isSome).length s.cat.snaps.length
    s.owners.length basesRemoved s.cat.lock s.cat.lockCause

/-- LOAD_DONE behind the checks of R166, in the order of R187. -/
def loadDoneRequest (tag : Nat) (generation : Nat) (s : State) : State :=
  if generation = 0 then s.answer 27 tag .badField (.loadDone)
  else
    let removed := s.missingBases.length
    let s := (s.setLink { s.link with generation }).seedRng generation
    let s := s.removeBases
    let (lock, lockCause) := lockAtLoadDone s.cfg s.maint
    let s := (s.setCat { s.cat with lock, lockCause, lockClosedSince := false }).setPart .serving
    let s := s.warmUpAll
    let s := (s.answer 27 tag .ok (s.loadDoneBody removed)).announceServing
    slots8.foldl State.evaluate s

/-- LOAD_DONE (R187). -/
def execLoadDone (s : State) : Outcome :=
  whenReleased s <| takeRequest 27 parseNumber2 (.loadDone) loadDoneRequest

end Sys2Proof.Machine
end

