-- ==== Sys2Proof/Machine/PortCmds.lean ====
section
/-! DEFINITION. The commands of the server port itself (chapter 9): STATUS, WRITE, READ, EVENTS,
EVENT_PENDING_NOTICE, KIND_NUMBER_OUT_OF_RANGE. -/

namespace Sys2Proof.Machine

/-- The status byte is shifted out, which clears the request-dropped flag once it has been shown (R164);
`more` are the bytes behind it. -/
def State.shiftStatus (s : State) (more : Bytes) : State :=
  s.setPort { s.port with shiftedOut := s.port.statusByte :: more, dropped := false }

/-- STATUS (R163): the status byte, then zero bytes for any further ones. -/
def execStatus (further : Nat) (s : State) : Outcome :=
  whenReleased s fun s => s.shiftStatus (List.replicate further 0#8)

/-- The bytes of a WRITE transaction behind its command: a record accepted or discarded (R164). -/
def State.acceptRecord (s : State) (bytes : Bytes) : State :=
  let length := fieldAt bytes 0 1
  if 4 ≤ length ∧ length ≤ 64 ∧ length ≤ bytes.length ∧
      s.port.requests.length < Config.requestSlots then
    s.setPort { s.port with requests := s.port.requests ++ [bytes.take length] }
  else s.setPort { s.port with dropped := true }

/-- WRITE (R164); without any further byte it has the effect of STATUS (R163). -/
def execWrite (bytes : List (BitVec 8)) (s : State) : Outcome :=
  whenReleased s fun s =>
    if bytes.isEmpty then s.shiftStatus [] else (s.shiftStatus []).acceptRecord bytes

/-- READ (R165); without any further byte it has the effect of STATUS (R163). A record shifted out whole
is removed, and a removal that leaves nine free slots is an arrival of notice room (R168). -/
def execRead (clocked : Nat) (s : State) : Outcome :=
  whenReleased s fun s =>
    if clocked = 0 then s.shiftStatus []
    else
      match s.port.completions with
      | [] => s.shiftStatus (emptyRecordBytes.take clocked)
      | r :: rest =>
        let bytes := r.bytes rest.length
        let s := s.shiftStatus (bytes.take clocked)
        if bytes.length ≤ clocked then
          let s := s.setPort { s.port with completions := rest }
          if s.room then s.roomArrives else s
        else s

/-- The entries of the event summary in ascending kind number (R176). -/
def Port.eventEntries (p : Port) : List (Nat × Nat × Nat) :=
  slots15.filterMap fun k =>
    let e := p.events[k]
    if e.flag then some (k.val + 1, e.count, e.subject) else none

/-- The emptied summary, with EVENT_PENDING not due (R176). -/
def Port.clearEvents (p : Port) : Port := { p with events := Port.reset.events, eventDue := false }

/-- EVENTS (R176): the summary is returned and cleared in one step. -/
def execEvents (s : State) : Outcome :=
  whenReleased s <| takeRequest 22 parseEmpty (.events) fun tag _ s =>
    (s.setPort s.port.clearEvents).answer 22 tag .ok (.events s.port.eventEntries)

/-- EVENT_PENDING_NOTICE (R175): the notice that is due is placed with notice room. -/
def execEventPendingNotice (s : State) : Outcome := whenReleased s State.flushEvent

/-- KIND_NUMBER_OUT_OF_RANGE (R166): a record whose kind number lies outside 1 to 27 is taken and
answered BAD_FIELD, its tag and kind echoed as written. -/
def execKindNumberOutOfRange (s : State) : Outcome :=
  whenReleased s fun s =>
    match s.port.requests with
    | [] => s
    | r :: _ =>
      if s.canTake ∧ (recordKind r = 0 ∨ 27 < recordKind r) then
        s.dropHead.answer (recordKind r) (recordTag r) .badField .none
      else s

end Sys2Proof.Machine
end

