-- ==== Sys2Proof/Machine/RestoreCmds.lean ====
section
/-! DEFINITION. The requests of the Restore Controller (chapter 6), and its timer and notice steps. -/

namespace Sys2Proof.Machine

/-! ### RESTORE_OPEN (6.2) -/

/-- The number behind a job counter: 65,535 is followed by 1 (R106). -/
def nextJob (counter : Nat) : Nat := if counter ≥ 65535 then 1 else counter + 1

/-- The assembly deadline counted from now (R106, R108). -/
def State.assemblyDeadline (s : State) : Nat := s.now + secondsMs s.cfg.assemblyTimeout

/-- The context record that RESTORE_OPEN fills in (R106, R107). -/
def State.newContext (s : State) (q : OpenReq) (source target : Fin 8) : Context :=
  { state := .assembling, job := nextJob s.rsc.jobCounter, owner := q.owner,
    tracked := (s.classOf q.owner).isSome, sourceSlot := source, sourceEpoch := q.epoch,
    targetSlot := target, k := q.k, items := [], deadline := some s.assemblyDeadline,
    handle := none, outstanding := 0, failureSeen := false, endDue := false, timeoutDue := false,
    charged := 0 }

/-- RESTORE_OPEN behind the checks of R166 (R106, R107). -/
def openRequest (tag : Nat) (q : OpenReq) (s : State) : State :=
  if invalidOwner q.owner ∨ q.source = 0 ∨ q.target = 0 ∨ q.k = 0 ∨ 32 < q.k then
    s.answer 11 tag .badField (.restoreOpen)
  else
    match s.findVol q.source, s.findVol q.target with
    | some (i, _), some (j, _) =>
      if (s.findSnap i q.epoch).isNone then s.answer 11 tag .noSuch (.restoreOpen)
      else
        match slots4.find? fun c => (s.context c).isNone with
        | none => s.answer 11 tag .full (.restoreOpen)
        | some c =>
          let x := s.newContext q i j
          let s := (s.putContext c (some x)).takeRef i q.epoch
          (s.setRsc { s.rsc with jobCounter := x.job }).answer 11 tag
            (if x.tracked then .ok else .untracked) (.restoreOpen c x.job x.deadline)
    | _, _ => s.answer 11 tag .noSuch (.restoreOpen)

/-- RESTORE_OPEN (R106). -/
def execRestoreOpen (s : State) : Outcome :=
  whenReleased s <| takeRequest 11 parseOpen (.restoreOpen) openRequest

/-- The context that a request names by number and job number; none for a FREE context or another job
number (R107). -/
def State.findJob (s : State) (context job : Nat) : Option (Fin 4 × Context) :=
  if h : context < 4 then
    match s.context ⟨context, h⟩ with
    | some x => if x.job = job then some (⟨context, h⟩, x) else none
    | none => none
  else none

/-! ### RESTORE_ITEM (6.3) -/

/-- The size of the volume in a slot, 0 for a free slot. -/
def State.sizeOf (s : State) (i : Fin 8) : Nat := ((s.vol i).map (·.size)).getD 0

/-- The first abort condition of R109 that holds. -/
def State.abortReason (s : State) (x : Context) (q : ItemReq) : Option AbortReason :=
  if x.k ≤ x.items.length then some .extra
  else if x.sourceEpoch < q.birth then some .birth
  else if s.sizeOf x.sourceSlot < q.source + q.length then some .sourceRange
  else if s.sizeOf x.targetSlot < q.target + q.length then some .targetRange
  else
    match x.items.getLast? with
    | some last => if q.target < last.target + last.length then some .order else none
    | none => none

/-- RESTORE_ITEM behind the checks of R166 (R108 to R110). -/
def itemRequest (tag : Nat) (q : ItemReq) (s : State) : State :=
  if 3 < q.context ∨ q.length = 0 then s.answer 12 tag .badField (.restoreItem)
  else
    match s.findJob q.context q.job with
    | none => s.answer 12 tag .noSuch (.restoreItem)
    | some (c, x) =>
      if x.state ≠ .assembling then s.answer 12 tag .busy (.restoreItem)
      else
        match s.abortReason x q with
        | some reason =>
          ((s.freeContext c x).answer 12 tag .aborted
            (.restoreItem (reason := reason) (wouldBe := x.items.length)
              (heldItems := x.items.length))).evaluateIfOver x.sourceSlot
        | none =>
          let item : Item :=
            { source := q.source, length := q.length, birth := q.birth, target := q.target,
              state := .pending }
          (s.putContext c (some
            { x with items := x.items ++ [item], deadline := some s.assemblyDeadline,
                     timeoutDue := false })).answer 12 tag .ok
            (.restoreItem (index := x.items.length) (received := x.items.length + 1))

/-- RESTORE_ITEM (R108). -/
def execRestoreItem (s : State) : Outcome :=
  whenReleased s <| takeRequest 12 parseItem (.restoreItem) itemRequest

/-! ### RESTORE_GO (6.4) -/

/-- The context of a job that starts running, with its handle if it has one (R112, R113). -/
def Context.start (x : Context) (handle : Option Nat) : Context :=
  { x with state := .running, handle, deadline := none, timeoutDue := false }

/-- What follows the completion of a GO that made a context RUNNING: its first COPY notices (R113). -/
def State.startJob (s : State) (c : Fin 4) (x : Context) (handle : Option Nat) : State :=
  (s.putContext c (some (x.start handle))).restoreStarts

/-- A RESTORE_GO that finds all items of a tracked owner: admission of the whole job (R113, R43). -/
def goTracked (tag : Nat) (c : Fin 4) (x : Context) (cls : Fin 8) (s : State) : State :=
  let n := (x.items.map (·.length)).sum
  let target := s.volumeId x.targetSlot
  let (d, s) := s.admitBlocks x.owner cls n target (.restore c)
  let body := fun s : State =>
    Body.restoreGo (n := n) (view := d.view) (soft := d.soft) (hard := d.hard)
      (quota := s.quotaFor x.owner cls)
  if d.status = .ok ∨ d.status = .soft then
    let s := s.startJob c x (some d.handle)
    (s.answer 13 tag d.status (body s)).placeCopies
  else
    let s := s.freeContext c x
    (s.answer 13 tag d.status (body s)).evaluateIfOver x.sourceSlot

/-- RESTORE_GO behind the checks of R166 (R112, R113). -/
def goRequest (tag : Nat) (q : JobReq) (s : State) : State :=
  if 3 < q.context then s.answer 13 tag .badField (.restoreGo)
  else
    match s.findJob q.context q.job with
    | none => s.answer 13 tag .noSuch (.restoreGo)
    | some (c, x) =>
      if x.state ≠ .assembling then s.answer 13 tag .busy (.restoreGo)
      else if x.items.length < x.k then
        ((s.freeContext c x).answer 13 tag .aborted
          (.restoreGo (reason := .short) (heldItems := x.items.length))).evaluateIfOver
            x.sourceSlot
      else
        match (if x.tracked then s.classOf x.owner else none) with
        | some cls => goTracked tag c x cls s
        | none => ((s.startJob c x none).answer 13 tag .untracked (.restoreGo)).placeCopies

/-- RESTORE_GO (R112). -/
def execRestoreGo (s : State) : Outcome :=
  whenReleased s <| takeRequest 13 parseJob (.restoreGo) goRequest

/-! ### RESTORE_CANCEL (6.7) -/

/-- RESTORE_CANCEL behind the checks of R166 (R119). -/
def cancelJobRequest (tag : Nat) (q : JobReq) (s : State) : State :=
  if 3 < q.context then s.answer 14 tag .badField (.restoreCancel)
  else
    match s.findJob q.context q.job with
    | none => s.answer 14 tag .noSuch (.restoreCancel)
    | some (c, x) =>
      match x.state with
      | .assembling =>
        ((s.freeContext c x).answer 14 tag .ok
          (.restoreCancel (items := x.items.length))).evaluateIfOver x.sourceSlot
      | .running =>
        (((s.putContext c (some { x with state := .draining })).testJobEnd c).answer 14 tag .ok
          (.restoreCancel (outstanding := x.outstanding))).restoreEndStep c
      | .draining =>
        ((s.testJobEnd c).answer 14 tag .ok
          (.restoreCancel (outstanding := x.outstanding))).restoreEndStep c

/-- RESTORE_CANCEL (R119). -/
def execRestoreCancel (s : State) : Outcome :=
  whenReleased s <| takeRequest 14 parseJob (.restoreCancel) cancelJobRequest

/-! ### COPIED (6.6) -/

/-- A copied item of length l charged to the job's RESTORE entry (R44). -/
def State.chargeRestore (s : State) (x : Context) (l : Nat) : State :=
  match x.handle.bind s.entryByHandle with
  | none => s
  | some e =>
    let charged := s.adm.entries.map fun y =>
      if y.slot = e.slot then { y with blocks := y.blocks - l } else y
    ((s.setAdm { s.adm with entries := charged }).touchOwner e.owner fun o =>
      Owner.charge { o with reserved := o.reserved - l } l s.now).usedChanged e.owner (s.usedOf e.owner)

/-- The context after an item has been answered: the item leaves OUTSTANDING (R116 to R118). -/
def Context.answered (x : Context) (index : Nat) (item : Item) (ok : Bool) : Context :=
  let items := x.items.set index { item with state := if ok then .copied else .failed }
  if ok then { x with items, outstanding := x.outstanding - 1, charged := x.charged + item.length }
  else { x with items, outstanding := x.outstanding - 1, failureSeen := true, state := .draining }

/-- COPIED behind the checks of R166 (R116 to R118). -/
def copiedRequest (tag : Nat) (q : CopiedReq) (s : State) : State :=
  if 3 < q.context ∨ 31 < q.item ∨ 1 < q.result then s.answer 15 tag .badField (.copied)
  else
    match s.findJob q.context q.job with
    | none => s.answer 15 tag .noSuch (.copied)
    | some (c, x) =>
      match x.items[q.item]? with
      | none => s.answer 15 tag .noSuch (.copied)
      | some item =>
        if x.state = .assembling ∨ item.state ≠ .outstanding then
          s.answer 15 tag .noSuch (.copied)
        else
          let ok := q.result == 0
          let y := x.answered q.item item ok
          let free := s.poolFree
          let s := s.putContext c (some y)
          let s := if ok then
              (s.chargeRestore x item.length).appendCurrent x.targetSlot
                { start := item.target, length := item.length }
            else s
          let s := (s.testJobEnd c).answer 15 tag .ok
            (.copied (if ok then .copied else .failed) y.copiedCount y.outstanding y.state.shown)
          let s := s.restoreEndStep c
          (if y.state = .running then s.placeCopies else s).issueIfFreed free

/-- COPIED (R116). -/
def execCopied (s : State) : Outcome :=
  whenReleased s <| takeRequest 15 parseCopied (.copied) copiedRequest

/-! ### Timer and notice steps -/

/-- COPY_NOTICE (R115): COPY notices are placed in round robin while room lasts. -/
def execCopyNotice (s : State) : Outcome := whenReleased s State.placeCopies

/-- ASSEMBLY_DEADLINE (R111): the deadline of an ASSEMBLING context has come, and the timeout is due. -/
def execAssemblyDeadline (context : Fin 4) (s : State) : Outcome :=
  whenReleased s fun s => s.modifyContext context fun x =>
    if x.state = .assembling ∧ s.passed x.deadline then { x with timeoutDue := true } else x

/-- ASSEMBLY_TIMEOUT (R111). -/
def execAssemblyTimeout (context : Fin 4) (s : State) : Outcome :=
  whenReleased s fun s => s.assemblyTimeout context

/-- RESTORE_END_STEP (R120). -/
def execRestoreEndStep (context : Fin 4) (s : State) : Outcome :=
  whenReleased s fun s => s.restoreEndStep context

end Sys2Proof.Machine
end

