-- ==== Sys2Proof/Machine/StartCmds.lean ====
section
/-! DEFINITION. Start-up (chapter 10): POWER_ON_RESET, RST_ASSERTED, CONFIG_CHECK with the image's layout
and its two checks, the entries to LOADING and HALTED, and RESTART. -/

namespace Sys2Proof.Machine

/-! ### The image (10.2, R181) -/

/-- The image as read: 295 bytes from the first one; a memory that ends sooner reads as all ones (log 8). -/
def readImage (memory : Bytes) : Bytes :=
  (memory ++ List.replicate Config.imageBytes 0xFF#8).take Config.imageBytes

/-- The CRC check passes (R181): the last four bytes are read least significant byte first. -/
def imageCrcOk (b : Bytes) : Bool :=
  crc32 (b.take Config.imageFieldBytes) == bytesValue (b.drop Config.imageFieldBytes).reverse

/-- A value lies in a range. -/
def within (low high n : Nat) : Bool := low ≤ n && n ≤ high

/-- A depth of 1, 2 or 4. -/
def depthOk (n : Nat) : Bool := n == 1 || n == 2 || n == 4

/-- The class record at an index (R181 rows 1 to 5). -/
def classAt (b : Bytes) (i : Fin 8) : ClassRec :=
  { soft := fieldAt b (8 * i) 4, hard := fieldAt b (8 * i + 4) 4, grace := fieldAt b (64 + 2 * i) 2,
    margin := fieldAt b (80 + 4 * i) 4, threshold := fieldAt b (112 + 4 * i) 4,
    lease := fieldAt b (144 + 2 * i) 2 }

/-- The class and enable bytes of a decode window (R181 row 7). -/
def windowClassByte (b : Bytes) (i : Fin 8) : Nat := fieldAt b (224 + 2 * i) 1
def windowEnableByte (b : Bytes) (i : Fin 8) : Nat := fieldAt b (225 + 2 * i) 1

/-- The decode window at an index (R181 rows 6 and 7). -/
def windowAt (b : Bytes) (i : Fin 8) : Window :=
  { base := BitVec.ofNat 32 (fieldAt b (160 + 8 * i) 4),
    mask := BitVec.ofNat 32 (fieldAt b (164 + 8 * i) 4),
    cls := Fin.ofNat 8 (windowClassByte b i), enable := windowEnableByte b i == 1 }

/-- The send profile at an index (R181 rows 8 to 11). -/
def profileAt (b : Bytes) (i : Fin 4) : Profile :=
  { maxBlocks := fieldAt b (240 + 2 * i) 2, depth := fieldAt b (248 + i) 1,
    overhead := fieldAt b (252 + 2 * i) 2, retryLimit := fieldAt b (260 + i) 1 }

/-- The hold-lock-at-start byte (R181 row 24). -/
def lockByte (b : Bytes) : Nat := fieldAt b 290 1

/-- The values of an image (R181). -/
def imageOf (b : Bytes) : Image :=
  { classes := Vector.ofFn (classAt b), windows := Vector.ofFn (windowAt b),
    profiles := Vector.ofFn (profileAt b), uplink := fieldAt b 264 4, minShare := fieldAt b 268 2,
    stationCap := fieldAt b 270 4, announceInterval := fieldAt b 274 1,
    staleMultiple := fieldAt b 275 1, sweepPeriod := fieldAt b 276 2,
    assemblyTimeout := fieldAt b 278 1, cutTimeout := fieldAt b 279 2, copyDepth := fieldAt b 281 1,
    minProgress := fieldAt b 282 2, windowStart := fieldAt b 284 2, windowEnd := fieldAt b 286 2,
    scanRatio := fieldAt b 288 2,
    lockAtStart := if lockByte b = 1 then .closed else .opened }

/-- The checks of the station-wide fields, rows 12 to 24 (R181). -/
def stationChecks (b : Bytes) : List (Nat × Bool) :=
  let g := imageOf b
  [(12, within 1 1000000 g.uplink), (13, g.minShare ≤ 500), (14, within 1 1000000 g.stationCap),
    (15, within 1 60 g.announceInterval), (16, within 2 15 g.staleMultiple),
    (17, within 60 3600 g.sweepPeriod), (18, within 1 60 g.assemblyTimeout),
    (19, within 10 600 g.cutTimeout), (20, depthOk g.copyDepth), (21, g.minProgress ≤ 600),
    (22, g.windowStart ≤ 1439), (22, g.windowEnd ≤ 1439), (23, within 1 1000 g.scanRatio),
    (24, lockByte b ≤ 1)]

/-- Every field with a range that its bytes can leave, with its number, in the order of the table
(R181). Rows 1, 2 and 6 take any value. -/
def rangeChecks (b : Bytes) : List (Nat × Bool) :=
  (slots8.map fun i => (3, decide ((classAt b i).margin ≤ 16777215))) ++
    (slots8.map fun i => (4, within 1 1048576 (classAt b i).threshold)) ++
    (slots8.map fun i => (5, within 5 600 (classAt b i).lease)) ++
    (slots8.flatMap fun i =>
      [(7, decide (windowClassByte b i ≤ 7)), (7, decide (windowEnableByte b i ≤ 1))]) ++
    (slots4.map fun i => (8, within 64 4096 (profileAt b i).maxBlocks)) ++
    (slots4.map fun i => (9, depthOk (profileAt b i).depth)) ++
    (slots4.map fun i => (10, decide ((profileAt b i).overhead ≤ 10000))) ++
    (slots4.map fun i => (11, decide ((profileAt b i).retryLimit ≤ 15))) ++ stationChecks b

/-- What the checks of an image find; none when both stages pass (R181). -/
def checkImage (b : Bytes) : Option CheckFailure :=
  if imageCrcOk b then ((rangeChecks b).find? fun x => !x.2).map fun x => .range x.1
  else some .crc

/-! ### The entries to LOADING and HALTED (R182, R183) -/

/-- Entering LOADING: the link is LISTENING, the announce timer starts, the generator is seeded with
generation 0 (R183, R48, R49, R51). -/
def State.enterLoading (s : State) : State :=
  (s.setPart .loading).setLink { s.link with
    state := .listening, announceNext := some (s.now + secondsMs s.cfg.announceInterval),
    expiries := 0, rng := { station := s.station, generation := 0, drawn := 0 } }

/-- Entering HALTED: CONFIG_BAD is raised and its notice placed (R182). -/
def State.enterHalted (s : State) : State :=
  ((s.setPart .halted).raise .configBad 0).flushEvent

/-- The state that the last image check led to (R177 step 6, R188). -/
def State.enterChecked (s : State) : State :=
  if s.image.isSome then s.enterLoading else s.enterHalted

/-- CONFIG_CHECK (R181): in CONFIGURING the image is read and checked, and the part enters LOADING or
HALTED. -/
def execConfigCheck (image : List (BitVec 8)) (s : State) : Outcome :=
  whenReleased s fun s =>
    if s.part = .configuring then
      let b := readImage image
      match checkImage b with
      | none => ((s.setImage (some (imageOf b))).setCheckFailure none).enterChecked
      | some f => ((s.setImage none).setCheckFailure (some f)).enterChecked
    else s

/-! ### Resets (R177, R180, R188) -/

/-- RST_ASSERTED (R180): the part drives nothing and ignores its ports. -/
def execRstAsserted (s : State) : Outcome := .next (s.setRst true)

/-- POWER_ON_RESET (R180): RST is released, the straps are sampled, every block takes its power-on
state. The commands that wait outside the part stay (log 1). -/
def execPowerOnReset (station : Fin 16) (maint : Bool) (s : State) : Outcome :=
  .next { State.reset with station, maint, pending := s.pending }

/-- What a RESTART leaves before its completion and its entry to LOADING or HALTED (R177 steps 1 to 4):
the straps and the image stay with its check result. -/
def State.restarted (s : State) : State :=
  { State.reset with
    station := s.station, maint := s.maint, image := s.image, checkFailure := s.checkFailure,
    pending := s.pending }

/-- The part state that a RESTART enters (R177 step 6). -/
def State.checkedPart (s : State) : PartState := if s.image.isSome then .loading else .halted

/-- RESTART behind the checks of R166 (R177). -/
def restartRequest (tag : Nat) (_ : Unit) (s : State) : State :=
  (s.restarted.answer 23 tag .ok (.restart s.station.val s.checkedPart 0)).enterChecked

/-- RESTART (R177). -/
def execRestart (s : State) : Outcome :=
  whenReleased s <| takeRequest 23 parseEmpty (.restart) restartRequest

end Sys2Proof.Machine
end

