-- ==== Sys2Proof/Machine/Dispatch.lean ====
section
/-! DEFINITION. The meaning of each command: one arm for each constructor of Instr. -/

namespace Sys2Proof.Machine

/-- The effect of a command on everything but the command queue. -/
def exec (i : Instr) (s : State) : Host.Outcome State Fault Refusal :=
  match i with
  | .powerOnReset station maint => Sys2Proof.Machine.execPowerOnReset station maint s
  | .configCheck image => Sys2Proof.Machine.execConfigCheck image s
  | .status further => Sys2Proof.Machine.execStatus further s
  | .write bytes => Sys2Proof.Machine.execWrite bytes s
  | .read clocked => Sys2Proof.Machine.execRead clocked s
  | .reserve => Sys2Proof.Machine.execReserve s
  | .renew => Sys2Proof.Machine.execRenew s
  | .cancel => Sys2Proof.Machine.execCancel s
  | .commit => Sys2Proof.Machine.execCommit s
  | .release => Sys2Proof.Machine.execRelease s
  | .snapshot => Sys2Proof.Machine.execSnapshot s
  | .deleteSnapshot => Sys2Proof.Machine.execDeleteSnapshot s
  | .expiryWaitingEvaluation => Sys2Proof.Machine.execExpiryWaitingEvaluation s
  | .hold => Sys2Proof.Machine.execHold s
  | .pin => Sys2Proof.Machine.execPin s
  | .lockHolds => Sys2Proof.Machine.execLockHolds s
  | .restoreOpen => Sys2Proof.Machine.execRestoreOpen s
  | .restoreItem => Sys2Proof.Machine.execRestoreItem s
  | .restoreGo => Sys2Proof.Machine.execRestoreGo s
  | .restoreCancel => Sys2Proof.Machine.execRestoreCancel s
  | .copied => Sys2Proof.Machine.execCopied s
  | .copyNotice => Sys2Proof.Machine.execCopyNotice s
  | .assemblyDeadline context => Sys2Proof.Machine.execAssemblyDeadline context s
  | .assemblyTimeout context => Sys2Proof.Machine.execAssemblyTimeout context s
  | .restoreEndStep context => Sys2Proof.Machine.execRestoreEndStep context s
  | .sent => Sys2Proof.Machine.execSent s
  | .duplicateNow => Sys2Proof.Machine.execDuplicateNow s
  | .clock => Sys2Proof.Machine.execClock s
  | .minuteAdvance => Sys2Proof.Machine.execMinuteAdvance s
  | .windowClosed => Sys2Proof.Machine.execWindowClosed s
  | .cutNotice => Sys2Proof.Machine.execCutNotice s
  | .cutTimeout slot => Sys2Proof.Machine.execCutTimeout slot s
  | .issuePass => Sys2Proof.Machine.execIssuePass s
  | .tokenGain => Sys2Proof.Machine.execTokenGain s
  | .deferralDeadline => Sys2Proof.Machine.execDeferralDeadline s
  | .dupEndStep slot => Sys2Proof.Machine.execDupEndStep slot s
  | .forgetStation => Sys2Proof.Machine.execForgetStation s
  | .forgetSweepVisit => Sys2Proof.Machine.execForgetSweepVisit s
  | .forgetSweepEnd => Sys2Proof.Machine.execForgetSweepEnd s
  | .inspect => Sys2Proof.Machine.execInspect s
  | .amend => Sys2Proof.Machine.execAmend s
  | .events => Sys2Proof.Machine.execEvents s
  | .eventPendingNotice => Sys2Proof.Machine.execEventPendingNotice s
  | .restart => Sys2Proof.Machine.execRestart s
  | .loadVolume => Sys2Proof.Machine.execLoadVolume s
  | .loadSnapshot => Sys2Proof.Machine.execLoadSnapshot s
  | .loadOwner => Sys2Proof.Machine.execLoadOwner s
  | .loadDone => Sys2Proof.Machine.execLoadDone s
  | .leaseExpiry slot => Sys2Proof.Machine.execLeaseExpiry slot s
  | .warmUpEnd owner => Sys2Proof.Machine.execWarmUpEnd owner s
  | .graceDeadlineExpiry owner => Sys2Proof.Machine.execGraceDeadlineExpiry owner s
  | .announceTimerExpiry => Sys2Proof.Machine.execAnnounceTimerExpiry s
  | .peerStaleDeadline station => Sys2Proof.Machine.execPeerStaleDeadline station s
  | .transmitAttemptStart => Sys2Proof.Machine.execTransmitAttemptStart s
  | .attemptSuccess => Sys2Proof.Machine.execAttemptSuccess s
  | .collision => Sys2Proof.Machine.execCollision s
  | .backoffExpiry => Sys2Proof.Machine.execBackoffExpiry s
  | .frameReceived burst => Sys2Proof.Machine.execFrameReceived burst s
  | .rstAsserted => Sys2Proof.Machine.execRstAsserted s
  | .kindNumberOutOfRange => Sys2Proof.Machine.execKindNumberOutOfRange s

end Sys2Proof.Machine
end

