-- ==== Sys2Proof/Machine/Due.lean ====
section
/-! DEFINITION. The part's own next step when no command waits: the steps that the spec lets come about
without a command from outside, in one fixed order (log 2), and the passing of one millisecond. -/

namespace Sys2Proof.Machine

/-- The command that takes a request of a kind (R166). -/
def requestCommand : Nat → Instr
  | 1 => .reserve | 2 => .renew | 3 => .commit | 4 => .cancel | 5 => .release | 6 => .snapshot
  | 7 => .deleteSnapshot | 8 => .hold | 9 => .pin | 10 => .lockHolds | 11 => .restoreOpen
  | 12 => .restoreItem | 13 => .restoreGo | 14 => .restoreCancel | 15 => .copied | 16 => .sent
  | 17 => .duplicateNow | 18 => .clock | 19 => .forgetStation | 20 => .inspect | 21 => .amend
  | 22 => .events | 23 => .restart | 24 => .loadVolume | 25 => .loadSnapshot | 26 => .loadOwner
  | 27 => .loadDone | _ => .kindNumberOutOfRange

/-- A command that is due when a condition holds. -/
def dueIf (b : Bool) (i : Instr) : Option Instr := if b then some i else none

/-- The first context, volume slot or station for which a command is due. -/
def dueContext (s : State) (p : Context → Bool) (f : Fin 4 → Instr) : Option Instr :=
  slots4.findSome? fun c => (s.context c).bind fun x => dueIf (p x) (f c)
def dueVolume (s : State) (p : Volume → Bool) (f : Fin 8 → Instr) : Option Instr :=
  slots8.findSome? fun i => (s.vol i).bind fun v => dueIf (p v) (f i)
def duePeer (s : State) (p : Peer → Bool) (f : Fin 16 → Instr) : Option Instr :=
  slots16.findSome? fun i => dueIf (p (s.peer i)) (f i)

/-- The notices and ends that wait for room and find it, in the order of R169. -/
def dueNotice (s : State) : Option Instr :=
  if s.room then
    dueIf s.port.eventDue .eventPendingNotice <|>
    dueContext s (fun x => x.timeoutDue && x.state == .assembling) .assemblyTimeout <|>
    dueContext s (·.endDue) .restoreEndStep <|>
    dueVolume s (·.endDue) .dupEndStep <|>
    dueVolume s (·.expiryWaiting) (fun _ => .expiryWaitingEvaluation) <|>
    dueVolume s Volume.cutReady (fun _ => .cutNotice) <|>
    dueIf s.nextCopy.isSome .copyNotice
  else none

/-- The window can go from CLOSING to CLOSED (R143). -/
def State.windowDone (s : State) : Bool :=
  s.dup.window == .closing && s.ticketsOut.isEmpty && (dueVolume s (·.endDue) .dupEndStep).isNone

/-- The token gain of the millisecond, then the timers of the blocks that have come to their deadlines. The
gain comes first: a millisecond gains the share that stood in it, not one that an expiry at its end
computes (R157; the worked night of section 8.7). -/
def dueTimer (s : State) : Option Instr :=
  dueIf s.time.gainOwed .tokenGain <|>
  dueContext s (fun x => x.state == .assembling && s.passed x.deadline && !x.timeoutDue)
    .assemblyDeadline <|>
  ((s.adm.entries.find? fun e => s.passed e.lease).map fun e => .leaseExpiry e.slot) <|>
  ((s.owners.find? fun o => s.passed o.warmUp).map fun o => .warmUpEnd o.id) <|>
  ((s.owners.find? fun o => s.passed o.grace && !o.graceTaken).map fun o =>
    .graceDeadlineExpiry o.id) <|>
  dueVolume s (fun v => v.dup == .cutPending && s.passed v.cutDeadline) .cutTimeout <|>
  dueIf (s.time.minute.isSome && s.passed s.time.nextAdvance) .minuteAdvance <|>
  dueIf (s.dup.suspension == .deferred && s.passed s.dup.deferral) .deferralDeadline <|>
  dueIf (s.passed s.link.announceNext) .announceTimerExpiry <|>
  duePeer s (fun p => s.passed (s.staleDeadline p)) .peerStaleDeadline

/-- The visit or the end of a running FORGET sweep (R65, R66). -/
def dueSweep (s : State) : Option Instr :=
  match s.link.sweep with
  | none => none
  | some w =>
    if (s.sweepNext w).isSome then dueIf s.link.visitOwed .forgetSweepVisit
    else dueIf (s.port.completions.length < Config.completionSlots) .forgetSweepEnd

/-- The request at the head of the queue, if it can be taken (R166). -/
def dueRequest (s : State) : Option Instr :=
  match s.port.requests with
  | [] => none
  | r :: _ => if s.canTake then some (requestCommand (recordKind r)) else none

/-- The head's ticket can be issued (R149). -/
def dueIssue (s : State) : Option Instr :=
  match s.head with
  | none => none
  | some (_, v) => dueIf (s.affordable v) .issuePass

/-- The part's own step that is due, if any; none while RST is asserted (R180). -/
def dueStep (s : State) : Option Instr :=
  if s.rst then none
  else
    dueNotice s <|> dueIf s.windowDone .windowClosed <|> dueTimer s <|> dueSweep s <|>
      dueRequest s <|> dueIssue s

/-- One millisecond passes: the 48-bit uptime counts (R180; log 14), a token gain is owed (R157), and a
running sweep owes a visit (R65). While RST is asserted it does not count (log 6). -/
def State.tick (s : State) : State :=
  if s.rst then s
  else
    (s.setTime { s.time with uptime := (s.time.uptime + 1) % 2 ^ 48, gainOwed := true }).setLink
      { s.link with visitOwed := s.link.sweep.isSome }

end Sys2Proof.Machine
end

