-- ==== Sys2Proof/Machine/Step.lean ====
section
/-! DEFINITION. One step of the part: the command at the front of its queue, or its own due step, or one
millisecond. -/

namespace Sys2Proof.Machine

/-- The step on an empty queue: the part's own due step, else one millisecond (log 2). -/
def idleStep (s : State) : Host.Outcome State Fault Refusal :=
  match dueStep s with
  | some i => exec i s
  | none => .next s.tick

/-- A step takes the command at the front of the queue and runs it on the state with the queue's rest. -/
def step (s : State) : Host.Outcome State Fault Refusal :=
  match s.pending with
  | c :: rest => exec c (s.setPending rest)
  | [] => idleStep s

/-- The state with the command that a word spells put at the front of its queue; unchanged where the word
spells none. -/
def State.withFetchWord (s : State) (nbits w : Nat) : State :=
  match decodeTableWord nbits w with
  | some c => s.setPending (c :: s.pending)
  | none => s

end Sys2Proof.Machine
end

