-- ==== Sys2Proof/Safety.lean ====
section
/-! DEFINITION. What the model's statements speak of: which blocks a command may change, when a request is
taken, and the invariants of the part. -/

namespace Sys2Proof.Safety

open Sys2Proof.Machine

/-! ### Frames -/

/-- The blocks of the state that a command may change. -/
inductive Block | time | port | owners | adm | link | cat | pool | rsc | dup
  deriving DecidableEq, Repr

/-- A block stands as it was. -/
def Block.same (s t : State) : Block → Prop
  | .time => t.time = s.time
  | .port => t.port = s.port
  | .owners => t.owners = s.owners
  | .adm => t.adm = s.adm
  | .link => t.link = s.link
  | .cat => t.cat = s.cat
  | .pool => t.poolFree = s.poolFree
  | .rsc => t.rsc = s.rsc
  | .dup => t.dup = s.dup

/-- The part state, the lines, the straps, the image and the commands that wait stand as they were. -/
def SameBoard (s t : State) : Prop :=
  t.rst = s.rst ∧ t.part = s.part ∧ t.station = s.station ∧ t.maint = s.maint ∧
    t.image = s.image ∧ t.checkFailure = s.checkFailure ∧ t.pending = s.pending

/-- Only the blocks listed may differ. -/
def ChangesOnly (l : List Block) (s t : State) : Prop :=
  SameBoard s t ∧ ∀ b : Block, b ∉ l → b.same s t

/-! ### Requests -/

/-- The request r stands at the head of the queue and passes the checks 1 and 2 of R166 as a request of a
kind; it can be taken in this step. -/
structure Takes (s : State) (kind : Nat) (r : Bytes) : Prop where
  released : s.rst = false
  head : s.port.requests.head? = some r
  room : s.port.completions.length < 64
  kindIs : recordKind r = kind
  tagged : recordTag r ≠ 0
  started : s.part ≠ .configuring
  served : servedIn s.part kind = true

/-- A completion in one part (R167). -/
def reply (kind tag : Nat) (status : Status) (body : Body) : Record :=
  { type := .completion, number := kind, status, tag, part := 0, parts := 1, body }

/-- A notice (R168): its tag is 0 and it stands alone. -/
def noticeOf (number : Nat) (body : Body) : Record :=
  { type := .notice, number, status := .ok, tag := 0, part := 0, parts := 1, body }

/-- The completion queue has grown by a record and, behind it, by notices alone. -/
def Places (s t : State) (r : Record) : Prop :=
  ∃ more : List Record, t.port.completions = s.port.completions ++ r :: more ∧
    ∀ x ∈ more, x.type = .notice

/-- The head of the request queue has gone, and its one completion has joined the completion queue,
followed by notices alone (R166, R167). -/
def Answered (s t : State) (r : Record) : Prop :=
  t.port.requests = s.port.requests.drop 1 ∧ Places s t r

/-- An event has been raised: its flag is set, its count is one more, up to 255, and its last subject is
the given one (R174). -/
def Raised (s t : State) (k : EventKind) (subject : Nat) : Prop :=
  t.port.events[k.index] =
    { flag := true, count := min (s.port.events[k.index].count + 1) 255, subject }

/-- The length that a record's kind calls for; for LOAD_SNAPSHOT its bucket count decides (R166, R179). -/
def lengthOk (r : Bytes) : Bool :=
  match recordKind r with
  | 1 => r.length == 14 | 2 => r.length == 6 | 3 => r.length == 22 | 4 => r.length == 6
  | 5 => r.length == 24 | 6 => r.length == 11 | 7 => r.length == 10 | 8 => r.length == 11
  | 9 => r.length == 11 | 10 => r.length == 4 | 11 => r.length == 17 | 12 => r.length == 21
  | 13 => r.length == 7 | 14 => r.length == 7 | 15 => r.length == 9 | 16 => r.length == 7
  | 17 => r.length == 6 | 18 => r.length == 6 | 19 => r.length == 5 | 20 => r.length == 12
  | 21 => r.length == 30 | 22 => r.length == 4 | 23 => r.length == 4 | 24 => r.length == 26
  | 25 => 16 ≤ r.length && r.length == 16 + 8 * fieldAt r 15 1
  | 26 => r.length == 21 | 27 => r.length == 6
  | _ => false

/-- Every owner's record but one stands as it was. -/
def OthersKept (id : OwnerId) (s t : State) : Prop :=
  ∀ x : OwnerId, x ≠ id → t.findOwner x = s.findOwner x

/-! ### Owner records -/

/-- A record is evictable: nothing used, reserved or reported, and no reservation entry of its owner (R6). -/
abbrev Evictable (s : State) (o : Owner) : Prop :=
  o.used = 0 ∧ o.reserved = 0 ∧ o.lastReported = 0 ∧ ∀ e ∈ s.adm.entries, e.owner ≠ o.id

/-- The record that gives way in a full table: the evictable one with the oldest last charge time, of equal
ones the one with the lower owner ID (R6). -/
abbrev IsVictim (s : State) (v : Owner) : Prop :=
  v ∈ s.owners ∧ Evictable s v ∧ ∀ x ∈ s.owners, Evictable s x →
    v.lastCharge < x.lastCharge ∨ (v.lastCharge = x.lastCharge ∧ v.id ≤ x.id)

/-- One record has given way to another, and the rest of the table stands (R6). -/
def Replaced (s t : State) (gone come : Owner) : Prop :=
  t.findOwner gone.id = none ∧ t.findOwner come.id = some come ∧
    t.owners.length = s.owners.length ∧
    ∀ id : OwnerId, id ≠ gone.id → id ≠ come.id → t.findOwner id = s.findOwner id

/-- The record that RESERVE, RESTORE_GO or a late COMMIT creates, before the request's own change (R5). -/
def newRecord (s : State) (id : OwnerId) (cls : Fin 8) : Owner :=
  { id, cls, used := 0, reserved := 0, contributions := [], overflow := false, override := none,
    grace := none, graceTaken := false,
    warmUp := some (s.time.uptime + s.cfg.sweepPeriod * 1000), lastReported := 0,
    reportTime := some s.time.uptime, lastCharge := s.time.uptime }

/-- An owner is report-due (R19). -/
def isReportDue (s : State) (o : Owner) : Bool :=
  decide ((s.classRec o.cls).threshold ≤ max o.used o.lastReported - min o.used o.lastReported ∨
    (o.used = 0 ∧ o.lastReported ≠ 0))

/-- An owner is overdue (R19). -/
def isOverdue (s : State) (o : Owner) : Bool :=
  o.reportTime.all fun w => decide (s.cfg.sweepPeriod * 1000 ≤ s.time.uptime - w)

/-- The entries of a USAGE frame: report-due owners, then overdue ones, each in ascending owner ID,
at most 24 (R20; no owner left out earlier goes first, log 36). -/
def usageChoice (s : State) : List (OwnerId × Nat) :=
  ((s.owners.filter (isReportDue s) ++
    s.owners.filter fun o => isOverdue s o && !isReportDue s o).take 24).map fun o => (o.id, o.used)

/-! ### Retained lists, cuts and the window -/

/-- Buckets put into a retained list one after another by the rule of R76, and the number of merges. -/
def insertAll (moved l : List Bucket) : List Bucket × Nat :=
  moved.foldl (fun a b => ((insertBucket b a.1).1, a.2 + (insertBucket b a.1).2.toNat)) (l, 0)

/-- The lists of a volume at its cut start a scan (R131). -/
def startsScan (v : Volume) : Bool :=
  v.fullScan || v.base.isNone || match v.send with | .extents _ => false | .scan _ => true

/-- What the minute of day m, just set, does to the night window (R141 to R143). Outside SERVING and while
CLOSING it does nothing; in an OPEN window a minute outside it starts the close, which is at once complete
when no ticket is outstanding and no end is due; a CLOSED window opens at the start minute alone. -/
def WindowFollows (s t : State) (m : Nat) : Prop :=
  let start := s.cfg.windowStart
  let stop := s.cfg.windowEnd
  let still : Bool :=
    slots16.all (fun k => (s.ticket k).isNone) && slots8.all fun i => (s.vol i).all (!·.endDue)
  (s.part ≠ .serving ∨ s.dup.window = .closing → t.dup.window = s.dup.window) ∧
  (s.part = .serving → s.dup.window = .opened →
    (inWindow start stop m = true → t.dup.window = .opened) ∧
    (inWindow start stop m = false → t.dup.window = (if still then .closed else .closing) ∧
      t.dup.suspension = .issuing ∧ t.dup.deferral = none)) ∧
  (s.part = .serving → s.dup.window = .closed →
    (m ≠ start ∨ start = stop → t.dup.window = .closed) ∧
    (m = start → start ≠ stop →
      t.dup.window = .opened ∧ t.dup.tokens = 0 ∧ t.dup.deferral = none ∧
      t.dup.suspension = (if 0 < s.dup.running then .suspended else .issuing) ∧
      ∀ i v, s.vol i = some v → ∃ w, t.vol i = some w ∧
        if v.dupEnable = true then
          w.dup = .cutPending ∧ w.failures = 0 ∧ w.atRisk = false ∧
            (w.cutDue = true ∨
              w.cutDeadline = some (s.time.uptime + s.cfg.cutTimeout * 1000))
        else w.dup = v.dup ∧ w.failures = v.failures))

/-- The producers that have a notice ready, by their notice numbers, in the order in which an arrival of room
serves them (R169). -/
def readyProducers (s : State) : List Nat :=
  (if s.port.eventDue then [7] else []) ++
  (if slots4.any fun c => (s.context c).any fun x =>
    x.endDue || (x.timeoutDue && x.state == .assembling) then [5] else []) ++
  (if slots8.any fun i => (s.vol i).any (·.endDue) then [6] else []) ++
  (if slots8.any fun i => (s.vol i).any (·.expiryWaiting) then [4] else []) ++
  (if slots8.any fun i => (s.vol i).any fun v => v.cutDue && v.dup == .cutPending then [3]
    else []) ++
  (if slots4.any fun c => (s.context c).any (·.copyReady s.cfg.copyDepth) then [1] else []) ++
  (if s.head.any fun x => s.nextCost x.2 * 1000 ≤ s.dup.tokens then [2] else [])

/-! ### Frames of the commands -/

/-- The blocks that a command may change; none for the five commands that change the part state, the lines
or the straps (R100, R177, R180, R182, R183, R187), which have statements of their own. -/
def mayChange : Instr → Option (List Block)
  | .powerOnReset _ _ | .configCheck _ | .rstAsserted | .restart | .loadDone => none
  | .status _ | .write _ | .events | .eventPendingNotice | .kindNumberOutOfRange => some [.port]
  | .read _ | .restoreCancel | .restoreEndStep _ =>
    some [.owners, .adm, .rsc, .cat, .pool, .dup, .port]
  | .reserve | .cancel | .leaseExpiry _ => some [.owners, .adm, .port]
  | .renew => some [.adm, .port]
  | .commit => some [.owners, .adm, .link, .cat, .pool, .dup, .port]
  | .release => some [.owners, .link, .cat, .pool, .dup, .port]
  | .snapshot | .sent | .issuePass => some [.cat, .pool, .dup, .port]
  | .deleteSnapshot | .expiryWaitingEvaluation | .hold | .pin | .lockHolds | .duplicateNow
  | .cutNotice | .cutTimeout _ | .loadVolume | .loadSnapshot => some [.cat, .port]
  | .restoreOpen | .restoreItem | .assemblyTimeout _ => some [.rsc, .cat, .port]
  | .restoreGo => some [.owners, .adm, .rsc, .cat, .dup, .port]
  | .copied => some [.owners, .adm, .link, .rsc, .cat, .pool, .dup, .port]
  | .copyNotice => some [.rsc, .port]
  | .assemblyDeadline _ => some [.rsc]
  | .clock | .minuteAdvance | .tokenGain => some [.time, .cat, .pool, .dup, .port]
  | .windowClosed | .dupEndStep _ => some [.cat, .dup, .port]
  | .deferralDeadline => some [.dup]
  | .forgetStation | .forgetSweepEnd | .collision => some [.link, .port]
  | .forgetSweepVisit | .attemptSuccess => some [.link, .owners]
  | .inspect | .loadOwner => some [.owners, .port]
  | .amend => some [.owners, .cat, .port]
  | .warmUpEnd _ | .graceDeadlineExpiry _ => some [.owners]
  | .announceTimerExpiry => some [.link, .cat, .pool, .dup, .port]
  | .peerStaleDeadline _ | .transmitAttemptStart | .backoffExpiry => some [.link]
  | .frameReceived _ => some [.link, .owners, .port]

/-! ### Invariants -/

/-- Neither queue of the server port holds more than 64 records (R166, R167). -/
abbrev QueuesBounded (s : State) : Prop :=
  s.port.requests.length ≤ 64 ∧ s.port.completions.length ≤ 64

/-- The image, the hold lock and the link follow the part state: values are in force exactly in LOADING
and SERVING (R182), the link is OFF exactly in CONFIGURING and HALTED (R48), the lock is fixed exactly in
SERVING (R100), and the own generation is 0 outside SERVING (R67). -/
abbrev ModesAgree (s : State) : Prop :=
  (s.image.isSome = true ↔ s.part = .loading ∨ s.part = .serving) ∧
  (s.link.state = .off ↔ s.part = .configuring ∨ s.part = .halted) ∧
  (s.cat.lock ≠ .unfixed ↔ s.part = .serving) ∧
  (s.part ≠ .serving → s.link.generation = 0)

/-- Outside ACTIVE both transmit slots are EMPTY, nothing is on the pair and no back-off runs (R55). -/
abbrev QuietOutsideActive (s : State) : Prop :=
  s.link.state ≠ .active →
    s.link.announceSlot = .empty ∧ s.link.usageSlot = .empty ∧ s.link.onPair = none ∧
      s.link.backoff = none

/-- The Owner Table holds at most 4,096 records in strictly ascending owner ID, and each record at most six
contributions in strictly ascending station number, each of at least one block and none of the own station
(R3, section 1.4). -/
abbrev OwnersOrdered (s : State) : Prop :=
  s.owners.length ≤ 4096 ∧ s.owners.Pairwise (fun a b => a.id < b.id) ∧
    ∀ o ∈ s.owners, o.contributions.length ≤ 6 ∧
      o.contributions.Pairwise (fun a b => a.station < b.station) ∧
      ∀ c ∈ o.contributions, 1 ≤ c.blocks ∧ c.station ≠ s.station

/-- The token accumulator stays within its cap, and the share within the uplink rate and the station cap
(R156, R157), which are 0 while the part is CONFIGURING and has no image in force (R182). -/
abbrev PacingBounded (s : State) : Prop :=
  s.dup.tokens ≤ 8192000 ∧ s.dup.share ≤ min s.cfg.uplink s.cfg.stationCap ∧
    (s.part = .configuring → s.image = none)

/-- A context counts as a running restore (R105). -/
def isRunning : Option Context → Bool
  | some x => x.state != .assembling
  | none => false

/-- The running-restores count is the number of contexts RUNNING or DRAINING (R105, R160). -/
abbrev RunningCounted (s : State) : Prop :=
  s.dup.running = (slots4.filter fun c => isRunning (s.context c)).length ∧
    ∀ c : Fin 4, ∀ x ∈ s.context c, x.endDue = true → x.state ≠ .assembling

/-- The blocks that the snapshots of the volume in a slot hold. -/
def heldBlocks (s : State) (i : Fin 8) : Nat :=
  ((s.snapsOf i).map fun x => bucketTotal x.buckets).sum

/-- The retained count of every volume is the sum of the buckets of its snapshots (R70). A free slot has
no snapshots, no two snapshots of a volume share an epoch (R71), and every epoch lies below the volume's
open epoch (R72). -/
abbrev RetainedCounted (s : State) : Prop :=
  (∀ i : Fin 8, ∀ v ∈ s.vol i, v.retained = heldBlocks s i ∧ ∀ x ∈ s.snapsOf i, x.epoch < v.openEpoch) ∧
    (∀ i : Fin 8, s.vol i = none → s.snapsOf i = []) ∧
    s.cat.snaps.Pairwise fun x y => ¬(x.slot = y.slot ∧ x.epoch = y.epoch)

/-- A list of entries is ordered and disjoint, adjacent only after a full entry, each entry of 1 to 65,535
blocks (R125). -/
abbrev ListOk (l : List Extent) : Prop :=
  (∀ e ∈ l, 1 ≤ e.length ∧ e.length ≤ 65535) ∧
    l.Pairwise fun a b => a.stop < b.start ∨ (a.stop = b.start ∧ a.length = 65535)

/-- The pool entries that volumes' lists and tickets hold (R124). -/
def poolInUse (s : State) : Nat :=
  (slots8.map fun i =>
    match s.vol i with
    | some v => v.current.length + v.send.entries.length
    | none => 0).sum +
  (slots16.map fun t =>
    match s.ticket t with
    | some x => x.work.entries
    | none => 0).sum

/-- The pieces of a ticket of extent mode. -/
def Work.pieces : Work → List Extent
  | .extents l => l
  | .scan _ _ => []

/-- The max ticket blocks of every send profile of an image lie in 1 to 4,096 (R181 allows 64 to 4,096). -/
abbrev ProfilesOk (g : Image) : Prop :=
  ∀ p ∈ g.profiles.toList, 1 ≤ p.maxBlocks ∧ p.maxBlocks ≤ 4096

/-- Every pool entry is free, in a list or in a ticket (R124), and the lists have their form (R125, R129);
the window is OPEN only in SERVING (R141), and LOADING and SERVING have an image in force (R182). Outside
SERVING every volume has FULL_SCAN set: LOAD_VOLUME sets it (R138), and only a cut clears it (R131). -/
abbrev PoolConserved (s : State) : Prop :=
  s.poolFree + poolInUse s = 4096 ∧
    (∀ i : Fin 8, ∀ v ∈ s.vol i, ListOk v.current ∧ ListOk v.send.entries ∧
      (v.fullScan = true → v.current = [])) ∧
    (∀ t : Fin 16, ∀ x ∈ s.ticket t, ∀ e ∈ Work.pieces x.work, 1 ≤ e.length ∧ e.length ≤ 65535) ∧
    (∀ g ∈ s.image, ProfilesOk g) ∧
    (s.part = .loading ∨ s.part = .serving → s.image.isSome = true) ∧
    (s.dup.window = .opened → s.part = .serving) ∧
    (s.part ≠ .serving → ∀ i : Fin 8, ∀ v ∈ s.vol i, v.fullScan = true)

/-- The reservation table (R26): at most 512 entries in ascending slot, each with a slot below 512, a handle
of 1 to 65,535 that no other entry holds, and the handle counter at most 65,535. -/
abbrev ReservationTableOk (s : State) : Prop :=
  s.adm.entries.length ≤ 512 ∧ s.adm.entries.Pairwise (fun a b => a.slot < b.slot) ∧
    s.adm.entries.Pairwise (fun a b => a.handle ≠ b.handle) ∧ s.adm.handleCounter ≤ 65535 ∧
    ∀ e ∈ s.adm.entries, e.slot < 512 ∧ 1 ≤ e.handle ∧ e.handle ≤ 65535

/-- The blocks that an owner's reservation entries hold. -/
def entryBlocks (s : State) (id : OwnerId) : Nat :=
  ((s.adm.entries.filter (·.owner == id)).map (·.blocks)).sum

/-- The blocks of a job's items that are not COPIED. -/
def openBlocks (x : Context) : Nat := ((x.items.filter (·.state != .copied)).map (·.length)).sum

/-- Each owner's local reserved is the sum of its reservation entries, and every entry's owner has a record
(R3, R26). A WRITE entry has a lease and a RESTORE entry has none (R26); a RESTORE entry and the context that
holds its handle name each other, and it holds the blocks not yet copied (R44, R45). An ASSEMBLING context has
no handle, and its items are PENDING (R104, R112). -/
abbrev ReservedCounted (s : State) : Prop :=
  (∀ o ∈ s.owners, o.reserved = entryBlocks s o.id) ∧
    (∀ e ∈ s.adm.entries, (s.findOwner e.owner).isSome = true ∧
      (e.origin = .write → e.lease.isSome = true) ∧
      ∀ c : Fin 4, e.origin = .restore c →
        e.lease = none ∧ ∃ x ∈ s.context c, x.handle = some e.handle) ∧
    ∀ c : Fin 4, ∀ x ∈ s.context c,
      (∀ h ∈ x.handle, ∃ e ∈ s.adm.entries, e.handle = h ∧ e.origin = .restore c ∧
        e.owner = x.owner ∧ e.blocks = openBlocks x) ∧
      (x.state = .assembling → x.handle = none ∧ ∀ i ∈ x.items, i.state = .pending)

/-- The references of every snapshot are the contexts outside FREE that name it as source and the duplication
roles that it holds (R94). A context's source and a send role name a snapshot that stands (R95, R96); a base
epoch lies below the open epoch (R184) and, in SERVING, names a snapshot that stands (R97, R187). -/
abbrev ReferencesCounted (s : State) : Prop :=
  (∀ x ∈ s.cat.snaps, x.refs = (s.restoresOf x.slot x.epoch).length +
    (s.holdsSend x.slot x.epoch).toNat + (s.holdsBase x.slot x.epoch).toNat) ∧
    (∀ c : Fin 4, ∀ x ∈ s.context c, (s.findSnap x.sourceSlot x.sourceEpoch).isSome = true) ∧
    ∀ i : Fin 8, ∀ v ∈ s.vol i,
      (∀ e ∈ v.sendEpoch, (s.findSnap i e).isSome = true) ∧
      ∀ e ∈ v.base, e < v.openEpoch ∧ (s.part = .serving → (s.findSnap i e).isSome = true)

end Sys2Proof.Safety
end

