-- ==== Sys2Proof/Certificates/Slice0/Obligations.lean ====
section
/-! DEFINITION. The statements about the model, for the provers. Each docstring names the rules of spec/ that the
statement rests on. Where a clause is the model's own choice, the docstring names its log entry. -/

open Sys2Proof Sys2Proof.Machine Sys2Proof.Safety

/-! ### The step, the board and the port -/

/-- A step runs the command at the front of the queue on the state with the queue's rest (the command queue
is the model's own, log 1). -/
def Obligations.StepRunsFrontCommand : Prop :=
  ∀ (c : Instr) (rest : List Instr) (s : State), s.pending = c :: rest →
    step s = exec c (s.setPending rest)

/-- Every command answers a next state in every state, and leaves the commands that wait as they stand:
the spec gives the part no stop (R166, R167, R180). -/
def Obligations.EveryCommandAnswersNext : Prop :=
  ∀ (c : Instr) (s : State), ∃ t, exec c s = .next t ∧ t.pending = s.pending

/-- With no command waiting, the part takes its own due step, else one millisecond of uptime passes
(log 2): the 48-bit uptime counts (R180) and wraps to 0 (log 14), and the marks gainOwed and visitOwed say that
a token gain and a visit of a running sweep are owed for it (R157, R65; the marks are the model's own, log 10).
With RST asserted nothing happens (log 6). -/
def Obligations.EmptyQueueTakesDueStepOrOneMillisecond : Prop :=
  ∀ s : State, s.pending = [] →
    (s.rst = true → step s = .next s) ∧
    (∀ i, s.rst = false → dueStep s = some i → step s = exec i s) ∧
    (s.rst = false → dueStep s = none →
      step s = .next { s with
        time := { s.time with uptime := (s.time.uptime + 1) % 281474976710656, gainOwed := true }
        link := { s.link with visitOwed := s.link.sweep.isSome } })

/-- While RST is asserted the part drives neither the station link pair nor the completion-ready line and
ignores its ports: no command but the release of RST changes it (R180; log 6). -/
def Obligations.AssertedResetIgnoresEveryCommand : Prop :=
  (∀ s : State, ∃ t, exec .rstAsserted s = .next t ∧ t.rst = true ∧ t.completionReady = none ∧
    t.driven = none ∧ t = { s with rst := true }) ∧
  ∀ (c : Instr) (s : State), s.rst = true → (∀ n m, c ≠ .powerOnReset n m) → exec c s = .next s

/-- The release of RST samples the straps and puts every block into its power-on state (R24, R47, R68, R89,
R100, R123, R138, R162, R178, R180); the commands outside the part stay (log 1). -/
def Obligations.PowerOnResetLeavesEveryBlockAtItsResetValues : Prop :=
  ∀ (station : Fin 16) (maint : Bool) (s : State), ∃ t,
    exec (.powerOnReset station maint) s = .next t ∧
    t.rst = false ∧ t.part = .configuring ∧ t.station = station ∧ t.maint = maint ∧
    t.image = none ∧ t.checkFailure = none ∧ t.pending = s.pending ∧
    t.time.uptime = 0 ∧ t.time.minute = none ∧ t.time.nextAdvance = none ∧
    t.port.requests = [] ∧ t.port.completions = [] ∧ t.port.dropped = false ∧
    (∀ k : Fin 15, t.port.events[k] = { flag := false, count := 0, subject := 0 }) ∧
    t.port.eventDue = false ∧ t.owners = [] ∧ t.adm.entries = [] ∧ t.adm.handleCounter = 0 ∧
    t.link.state = .off ∧ t.link.announceNext = none ∧ t.link.expiries = 0 ∧
    t.link.announceSlot = .empty ∧ t.link.usageSlot = .empty ∧ t.link.onPair = none ∧
    t.link.attempts = 0 ∧ t.link.backoff = none ∧ t.link.sweep = none ∧ t.link.generation = 0 ∧
    (∀ i, t.peer i = Peer.reset) ∧
    (∀ i, t.vol i = none) ∧ t.cat.snaps = [] ∧ t.cat.lock = .unfixed ∧ t.poolFree = 4096 ∧
    (∀ c, t.context c = none) ∧ t.rsc.jobCounter = 0 ∧ t.rsc.lastServed = 3 ∧
    t.dup.window = .closed ∧ (∀ k, t.ticket k = none) ∧ t.dup.ticketCounter = 0 ∧
    t.dup.share = 0 ∧ t.dup.tokens = 0 ∧ t.dup.suspension = .issuing ∧ t.dup.lastResume = none ∧
    t.dup.deferral = none ∧ t.dup.running = 0

/-- In CONFIGURING the image read decides the part state. A good image is put in force and the part enters LOADING
with the link LISTENING, the announce timer started and the generator seeded (R181, R183, R48, R49, R51). A bad
one leaves no values, CONFIG_BAD is raised with subject 0, and in an empty completion queue with an empty
summary EVENT_PENDING is placed at once (R182, R175). An image passes only if its CRC-32 agrees with its last
four bytes, least significant byte first, and every field lies in its range (R181). (A memory of another length
than 295 bytes is read as log 8 says, and the orientation of the CRC is log 28.) -/
def Obligations.ConfigCheckEntersLoadingOrHalted : Prop :=
  (∀ b : Bytes, checkImage b = none →
    crc32 (b.take 291) = bytesValue (b.drop 291).reverse ∧
    (∀ c ∈ (imageOf b).classes.toList, c.margin ≤ 16777215 ∧ 1 ≤ c.threshold ∧
      c.threshold ≤ 1048576 ∧ 5 ≤ c.lease ∧ c.lease ≤ 600) ∧
    (∀ i : Fin 8, windowClassByte b i ≤ 7 ∧ windowEnableByte b i ≤ 1) ∧
    (∀ p ∈ (imageOf b).profiles.toList, 64 ≤ p.maxBlocks ∧ p.maxBlocks ≤ 4096 ∧
      (p.depth = 1 ∨ p.depth = 2 ∨ p.depth = 4) ∧ p.overhead ≤ 10000 ∧ p.retryLimit ≤ 15) ∧
    (1 ≤ (imageOf b).uplink ∧ (imageOf b).uplink ≤ 1000000) ∧ (imageOf b).minShare ≤ 500 ∧
    (1 ≤ (imageOf b).stationCap ∧ (imageOf b).stationCap ≤ 1000000) ∧
    (1 ≤ (imageOf b).announceInterval ∧ (imageOf b).announceInterval ≤ 60) ∧
    (2 ≤ (imageOf b).staleMultiple ∧ (imageOf b).staleMultiple ≤ 15) ∧
    (60 ≤ (imageOf b).sweepPeriod ∧ (imageOf b).sweepPeriod ≤ 3600) ∧
    (1 ≤ (imageOf b).assemblyTimeout ∧ (imageOf b).assemblyTimeout ≤ 60) ∧
    (10 ≤ (imageOf b).cutTimeout ∧ (imageOf b).cutTimeout ≤ 600) ∧
    ((imageOf b).copyDepth = 1 ∨ (imageOf b).copyDepth = 2 ∨ (imageOf b).copyDepth = 4) ∧
    (imageOf b).minProgress ≤ 600 ∧ (imageOf b).windowStart ≤ 1439 ∧
    (imageOf b).windowEnd ≤ 1439 ∧ (1 ≤ (imageOf b).scanRatio ∧ (imageOf b).scanRatio ≤ 1000) ∧
    lockByte b ≤ 1) ∧
  ∀ (memory : Bytes) (s : State), s.rst = false → s.part = .configuring →
    (checkImage (readImage memory) = none → ∃ t, exec (.configCheck memory) s = .next t ∧
      t.part = .loading ∧ t.image = some (imageOf (readImage memory)) ∧ t.checkFailure = none ∧
      t.link = { s.link with
        state := .listening
        announceNext :=
          some (s.time.uptime + (imageOf (readImage memory)).announceInterval * 1000)
        expiries := 0
        rng := { station := s.station, generation := 0, drawn := 0 } } ∧
      t.time = s.time ∧ t.port = s.port ∧ t.owners = s.owners ∧ t.adm = s.adm ∧ t.cat = s.cat ∧
      t.poolFree = s.poolFree ∧ t.rsc = s.rsc ∧ t.dup = s.dup) ∧
    ∀ f, checkImage (readImage memory) = some f → ∃ t, exec (.configCheck memory) s = .next t ∧
      t.part = .halted ∧ t.image = none ∧ t.checkFailure = some f ∧ Raised s t .configBad 0 ∧
      (s.port.completions = [] → s.port.events = Port.reset.events →
        t.port.completions = [noticeOf 7 (.eventPending 1 1)]) ∧
      t.port.requests = s.port.requests ∧ t.time = s.time ∧ t.link = s.link ∧
      t.owners = s.owners ∧ t.adm = s.adm ∧ t.cat = s.cat ∧ t.poolFree = s.poolFree ∧
      t.rsc = s.rsc ∧ t.dup = s.dup

/-- STATUS shifts out the status byte and zeros, WRITE accepts a record of 4 to 64 bytes that has arrived whole while
the request queue has a free slot, and otherwise discards it and sets the request-dropped flag; each
transaction clears the flag it has shown (R163, R164). The command byte is the first that the server shifts in:
01 is WRITE, 02 is READ, any other STATUS (R163). (What is shifted out behind the status byte of a WRITE is the
model's own, log 13.) -/
def Obligations.StatusAndWriteTransactions : Prop :=
  (∀ (command : Byte) (bytes : Bytes), transactionCommand (command :: bytes) = some
    (if command = 1#8 then .write bytes else if command = 2#8 then .read bytes.length
      else .status bytes.length)) ∧
  (∀ p : Port, p.statusByte.toNat = p.dropped.toNat * 128 + min (64 - p.requests.length) 7 * 16 +
    min p.completions.length 15) ∧
  (∀ s : State, s.rst = false →
    (∀ n, exec (.status n) s = .next (s.setPort { s.port with
      shiftedOut := s.port.statusByte :: List.replicate n 0, dropped := false })) ∧
    exec (.write []) s = .next (s.setPort { s.port with
      shiftedOut := [s.port.statusByte], dropped := false }) ∧
    ∀ bytes : Bytes,
      (4 ≤ fieldAt bytes 0 1 → fieldAt bytes 0 1 ≤ 64 → fieldAt bytes 0 1 ≤ bytes.length →
        s.port.requests.length < 64 →
        exec (.write bytes) s = .next (s.setPort { s.port with
          shiftedOut := [s.port.statusByte], dropped := false,
          requests := s.port.requests ++ [bytes.take (fieldAt bytes 0 1)] })) ∧
      (bytes ≠ [] → (fieldAt bytes 0 1 < 4 ∨ 64 < fieldAt bytes 0 1 ∨
          bytes.length < fieldAt bytes 0 1 ∨ 64 ≤ s.port.requests.length) →
        exec (.write bytes) s = .next (s.setPort { s.port with
          shiftedOut := [s.port.statusByte], dropped := true })))

/-- READ shifts out the oldest completion record behind the status byte and removes it with its last byte; a shorter
transaction leaves it, an empty queue shifts out the empty record, and without a further byte READ acts as
STATUS (R163, R165). A removal that leaves fewer than nine free slots places nothing (R168); one that leaves nine
gives the room to the first producer of R169 that has a notice ready. (What is shifted out behind the end of a
record is the model's own, log 13.) -/
def Obligations.ReadShiftsOutTheOldestRecord : Prop :=
  ∀ (s : State) (n : Nat), s.rst = false →
    (n = 0 → exec (.read n) s = .next (s.setPort { s.port with
      shiftedOut := [s.port.statusByte], dropped := false })) ∧
    (0 < n → s.port.completions = [] → exec (.read n) s = .next (s.setPort { s.port with
      shiftedOut := s.port.statusByte :: ([8, 0, 0, 0, 0, 0, 0, 0] : Bytes).take n,
      dropped := false })) ∧
    ∀ r rest, s.port.completions = r :: rest →
      (0 < n → n < (r.bytes rest.length).length →
        exec (.read n) s = .next (s.setPort { s.port with
          shiftedOut := s.port.statusByte :: (r.bytes rest.length).take n, dropped := false })) ∧
      ((r.bytes rest.length).length ≤ n → ∃ t, exec (.read n) s = .next t ∧
        t.port.shiftedOut = s.port.statusByte :: r.bytes rest.length ∧
        t.port.dropped = false ∧ t.port.requests = s.port.requests ∧
        (∃ more : List Record, t.port.completions = rest ++ more ∧
          (∀ x ∈ more, x.type = .notice) ∧ (55 < rest.length → more = []) ∧
          (rest.length ≤ 55 → t.port.completions.length ≤ 56) ∧
          ∀ first, rest.length ≤ 55 → (readyProducers s).head? = some first →
            (first = 4 → ∃ i v, s.vol i = some v ∧ v.expiryWaiting = true ∧
              (∀ j, j < i → ∀ w, s.vol j = some w → w.expiryWaiting = false) ∧
              v.overLimit = true ∧ v.autoExpire = true ∧ (s.candidate i).isSome = true) →
            more.head?.map (·.number) = some first))

/-- The checks 1 and 2 of R166: a tag of 0, a kind outside 1 to 27 (the row KIND_NUMBER_OUT_OF_RANGE) or a
wrong length is answered BAD_FIELD with the tag and kind as written; a kind that the part state does not
serve (R182, R183) is answered NOT_READY; neither changes anything else. Without a request, without a free
slot of the completion queue or in CONFIGURING no request is taken. -/
def Obligations.RequestsAreCheckedWhenTaken : Prop :=
  (∀ (k : Nat) (s : State), (s.port.requests = [] ∨ 64 ≤ s.port.completions.length ∨
      s.part = .configuring) → exec (requestCommand k) s = .next s) ∧
  ∀ (s : State) (r : Bytes), s.rst = false → s.port.requests.head? = some r →
    s.port.completions.length < 64 → s.part ≠ .configuring →
    (recordTag r = 0 ∨ lengthOk r = false →
      ∃ t body, exec (requestCommand (recordKind r)) s = .next t ∧
        Answered s t (reply (recordKind r) (recordTag r) .badField body) ∧
        ChangesOnly [.port] s t) ∧
    (recordTag r ≠ 0 → lengthOk r = true → servedIn s.part (recordKind r) = false →
      ∃ t body, exec (requestCommand (recordKind r)) s = .next t ∧
        Answered s t (reply (recordKind r) (recordTag r) .notReady body) ∧
        ChangesOnly [.port] s t)

/-! ### Admission, commits and releases -/

/-- A RESERVE of a tracked owner that the table of R30 grants, with a free slot and a record or room for
one: the entry takes the lowest free slot and the next free handle (R26, R27), the owner's local reserved
rises by n and the record is re-evaluated (R31), and the completion carries the figures of the decision
and the quota state after it (R33). A handle that no entry held is assigned (R27).
(A new record in a full Owner Table: OwnerTimersAndTheFullTable.) -/
def Obligations.ReserveGrantsByTheAdmissionTable : Prop :=
  ∀ (s : State) (r : Bytes) (q : ReserveReq) (cls : Fin 8),
    Takes s 1 r → parseReserve r = some q → invalidOwner q.owner = false → q.volume ≠ 0 →
    1 ≤ q.n → q.n ≤ 16777215 → (s.findVol q.volume).isSome = true →
    s.classOf q.owner = some cls →
    let u := s.reevaluate ((s.findOwner q.owner).getD (s.freshOwner q.owner cls))
    let limits := s.effectiveLimits u
    let after := min (u.view + q.n) 4294967295
    let slot := lowestFreeSlot 0 s.adm.entries
    let handle := nextHandle (s.adm.entries.map (·.handle)) 513 s.adm.handleCounter
    let lease := s.time.uptime + (s.classRec cls).lease * 1000
    let o := s.reevaluate { u with reserved := u.reserved + q.n, lastCharge := s.time.uptime }
    after ≤ limits.hard → ¬(limits.soft < after ∧ s.passed u.grace = true) →
    u.reserved + q.n ≤ 4294967295 → slot < 512 →
    ((s.findOwner q.owner).isSome = true ∨ s.owners.length < 4096) →
    ∃ t, exec .reserve s = .next t ∧
      t.adm = {
        entries := putEntry { slot, handle, owner := q.owner, blocks := q.n, volume := q.volume,
                              lease := some lease, origin := .write,
                              grantTime := s.time.uptime } s.adm.entries
        handleCounter := handle } ∧
      (s.adm.entries.length ≤ 512 → 1 ≤ handle ∧ handle ≤ 65535 ∧
        ∀ x ∈ s.adm.entries, x.handle ≠ handle) ∧
      t.findOwner q.owner = some o ∧ OthersKept q.owner s t ∧
      Answered s t (reply 1 (recordTag r) (if limits.soft < after then .soft else .ok)
        (.reserve handle (some lease) u.view limits.soft limits.hard (s.quotaState o))) ∧
      ChangesOnly [.owners, .adm, .port] s t

/-- A RESERVE that is not granted makes no entry and creates no record (R30, R31, R33): OVER_HARD, LAPSED or
FULL after the re-evaluation of R29, which stands; UNTRACKED with handle 0; NO_SUCH for an unknown volume;
BAD_FIELD for a field out of range.
(FULL with nothing evictable: OwnerTimersAndTheFullTable.) -/
def Obligations.RefusedReserveMakesNoEntry : Prop :=
  ∀ (s : State) (r : Bytes) (q : ReserveReq), Takes s 1 r → parseReserve r = some q →
    (invalidOwner q.owner = true ∨ q.volume = 0 ∨ q.n = 0 ∨ 16777215 < q.n →
      ∃ t, exec .reserve s = .next t ∧ ChangesOnly [.port] s t ∧
        Answered s t (reply 1 (recordTag r) .badField (.reserve))) ∧
    (invalidOwner q.owner = false → q.volume ≠ 0 → 1 ≤ q.n → q.n ≤ 16777215 →
      (s.findVol q.volume = none → ∃ t, exec .reserve s = .next t ∧ ChangesOnly [.port] s t ∧
        Answered s t (reply 1 (recordTag r) .noSuch (.reserve))) ∧
      ((s.findVol q.volume).isSome = true →
        (s.classOf q.owner = none → ∃ t, exec .reserve s = .next t ∧ ChangesOnly [.port] s t ∧
          Answered s t (reply 1 (recordTag r) .untracked (.reserve))) ∧
        ∀ cls, s.classOf q.owner = some cls →
          let u := s.reevaluate ((s.findOwner q.owner).getD (s.freshOwner q.owner cls))
          let limits := s.effectiveLimits u
          let after := min (u.view + q.n) 4294967295
          ∀ status,
            (if limits.hard < after then some Status.overHard
              else if limits.soft < after ∧ s.passed u.grace = true then some .lapsed
              else if 4294967295 < u.reserved + q.n then some .full
              else if 512 ≤ lowestFreeSlot 0 s.adm.entries then some .full
              else none) = some status →
            ∃ t, exec .reserve s = .next t ∧ t.adm = s.adm ∧
              t.findOwner q.owner = (s.findOwner q.owner).map s.reevaluate ∧
              OthersKept q.owner s t ∧ ChangesOnly [.owners, .port] s t ∧
              Answered s t (reply 1 (recordTag r) status
                (.reserve 0 none u.view limits.soft limits.hard (s.quotaState u)))))

/-- RENEW counts a new lease from now; CANCEL removes the entry and returns its blocks. A handle of no entry
is answered NO_SUCH by both; a RESTORE entry NO_SUCH by RENEW and BAD_FIELD by CANCEL (R35, R36). -/
def Obligations.RenewAndCancelOfAnEntry : Prop :=
  ∀ (s : State) (r : Bytes) (h : Nat), parseNumber2 r = some h → h ≠ 0 →
    (s.entryByHandle h = none →
      (Takes s 2 r → ∃ t, exec .renew s = .next t ∧ ChangesOnly [.port] s t ∧
        Answered s t (reply 2 (recordTag r) .noSuch (.renew))) ∧
      (Takes s 4 r → ∃ t, exec .cancel s = .next t ∧ ChangesOnly [.port] s t ∧
        Answered s t (reply 4 (recordTag r) .noSuch (.cancel)))) ∧
    ∀ e, s.entryByHandle h = some e →
      (∀ c, e.origin = .restore c →
        (Takes s 2 r → ∃ t, exec .renew s = .next t ∧ ChangesOnly [.port] s t ∧
          Answered s t (reply 2 (recordTag r) .noSuch (.renew))) ∧
        (Takes s 4 r → ∃ t, exec .cancel s = .next t ∧ ChangesOnly [.port] s t ∧
          Answered s t (reply 4 (recordTag r) .badField (.cancel)))) ∧
      ∀ o, e.origin = .write → s.findOwner e.owner = some o →
        (Takes s 2 r →
          let lease := s.time.uptime + (s.classRec o.cls).lease * 1000
          ∃ t, exec .renew s = .next t ∧
            t.adm = { s.adm with entries := s.adm.entries.map fun x =>
              if x.slot = e.slot then { x with lease := some lease } else x } ∧
            Answered s t (reply 2 (recordTag r) .ok (.renew (some lease))) ∧
            ChangesOnly [.adm, .port] s t) ∧
        (Takes s 4 r → ∃ t, exec .cancel s = .next t ∧
          t.adm = { s.adm with entries := s.adm.entries.filter (·.slot != e.slot) } ∧
          t.findOwner e.owner = some (s.reevaluate
            { o with reserved := o.reserved - e.blocks, lastCharge := s.time.uptime }) ∧
          OthersKept e.owner s t ∧
          Answered s t (reply 4 (recordTag r) .ok (.cancel e.blocks)) ∧
          ChangesOnly [.owners, .adm, .port] s t)

/-- A COMMIT of a WRITE entry of its owner (R38): the entry leaves, local reserved falls by its blocks and
local used rises by m, saturating. Its extent joins its run in the volume's current list, is passed over
while FULL_SCAN is set, or makes the list overflow (R126 to R130). (The refusals of R37:
ReleaseLowersUsedAndRefusalsChangeNothing.) -/
def Obligations.CommitOfAnEntryChargesItsOwner : Prop :=
  ∀ (s : State) (r : Bytes) (q : CommitReq) (e : Reservation) (o : Owner),
    Takes s 3 r → parseCommit r = some q → invalidOwner q.owner = false → q.m ≤ 16777215 →
    s.extentCheck q = none → q.handle ≠ 0 → s.entryByHandle q.handle = some e →
    e.owner = q.owner → e.origin = .write → (q.length = 0 ∨ q.volume = e.volume) →
    s.findOwner q.owner = some o →
    let p := s.reevaluate { o with
      reserved := o.reserved - e.blocks
      used := min (o.used + q.m) 4294967295
      lastCharge := s.time.uptime }
    ∃ t, exec .commit s = .next t ∧
      t.adm = { s.adm with entries := s.adm.entries.filter (·.slot != e.slot) } ∧
      t.findOwner q.owner = some p ∧ OthersKept q.owner s t ∧
      Answered s t (reply 3 (recordTag r) (if q.m ≤ e.blocks then .ok else .exceeded)
        (.commit q.m p.used (s.quotaState p))) ∧
      (q.length = 0 → t.cat = s.cat ∧ t.poolFree = s.poolFree) ∧
      (∀ i v, q.length ≠ 0 → s.findVol q.volume = some (i, v) →
        let j := joinExtent v.current { start := q.start, length := q.length }
        (v.fullScan = true → t.cat = s.cat ∧ t.poolFree = s.poolFree) ∧
        (v.fullScan = false → j.pieces ≤ s.poolFree + j.absorbed →
          ∃ w, t.vol i = some w ∧ w.current = j.list ∧ w.fullScan = false) ∧
        (v.fullScan = false → s.poolFree + j.absorbed < j.pieces →
          Raised s t .listOverflow v.id ∧
            ∃ w, t.vol i = some w ∧ w.current = [] ∧ w.fullScan = true))

/-- A COMMIT that names no entry (R39): a tracked owner with a record, or with room for one, is charged and
answered LATE and LATE_COMMIT is raised; an untracked owner is answered UNTRACKED and nothing is charged.
The reservation table stays as it was. -/
def Obligations.CommitWithoutAnEntry : Prop :=
  ∀ (s : State) (r : Bytes) (q : CommitReq),
    Takes s 3 r → parseCommit r = some q → invalidOwner q.owner = false → q.m ≤ 16777215 →
    s.extentCheck q = none → (q.handle = 0 ∨ s.entryByHandle q.handle = none) →
    (s.classOf q.owner = none → ∃ t, exec .commit s = .next t ∧ t.adm = s.adm ∧
      t.owners = s.owners ∧ Answered s t (reply 3 (recordTag r) .untracked (.commit))) ∧
    ∀ cls, s.classOf q.owner = some cls →
      ((s.findOwner q.owner).isSome = true ∨ s.owners.length < 4096) →
      let o := (s.findOwner q.owner).getD (s.freshOwner q.owner cls)
      let p := s.reevaluate { o with
        used := min (o.used + q.m) 4294967295
        lastCharge := s.time.uptime }
      ∃ t, exec .commit s = .next t ∧ t.adm = s.adm ∧ t.findOwner q.owner = some p ∧
        OthersKept q.owner s t ∧ Raised s t .lateCommit q.owner.toNat ∧
        Answered s t (reply 3 (recordTag r) .late (.commit q.m p.used (s.quotaState p)))

/-- RELEASE (R41, R42, R75): local used falls by b, floored at 0 with USAGE_UNDERFLOW; the blocks are
retained by the newest snapshot if it is at or above their birth, up to the end of the retained count, and
are free otherwise; no reservation entry changes. The blocks retained join the newest snapshot's list by the
insertion rule of R76, which merges two of nine buckets with BUCKET_MERGE, and the extent joins the current list
(R126 to R130). What the auto-expire evaluation of R81 does to a volume then over its limit is not said here. The
first check of R41 that fails answers the request (a length of 0 is checked too, log 18) and changes nothing.
The other requests that a check of their own rule refuses change nothing but the port either. COMMIT by the checks 1
to 5 of R37, with a volume ID of 0 answered BAD_FIELD as R69 says (log 17). AMEND by the checks of R172, the first
that fails (key ranges log 27). LOAD_VOLUME by R184, LOAD_SNAPSHOT by R185 and R87, LOAD_OWNER by R186 (an enable,
presence or kind byte out of form is the model's BAD_FIELD, log 16). -/
def Obligations.ReleaseLowersUsedAndRefusalsChangeNothing : Prop :=
  ((∀ (b : Bucket) (l : List Bucket), l.Pairwise (fun x y => x.birth < y.birth) →
    let joined := if l.any (·.birth == b.birth) then
        l.map fun x => if x.birth = b.birth then { x with blocks := x.blocks + b.blocks } else x
      else l.filter (·.birth < b.birth) ++ b :: l.filter (b.birth < ·.birth)
    (joined.length ≤ 8 → insertBucket b l = (joined, false)) ∧
    ∀ x y rest, joined = x :: y :: rest → 8 < joined.length →
      insertBucket b l = ({ birth := x.birth, blocks := x.blocks + y.blocks } :: rest, true)) ∧
  ∀ (s : State) (r : Bytes) (q : ReleaseReq), Takes s 5 r → parseRelease r = some q →
    (invalidOwner q.owner = true ∨ q.volume = 0 ∨ 16777215 < q.blocks →
      ∃ t, exec .release s = .next t ∧ ChangesOnly [.port] s t ∧
        Answered s t (reply 5 (recordTag r) .badField (.release))) ∧
    (invalidOwner q.owner = false → q.volume ≠ 0 → q.blocks ≤ 16777215 →
      (s.findVol q.volume = none → ∃ t, exec .release s = .next t ∧ ChangesOnly [.port] s t ∧
        Answered s t (reply 5 (recordTag r) .noSuch (.release))) ∧
      ∀ i v, s.findVol q.volume = some (i, v) →
        (v.openEpoch < q.birth ∨ v.size < q.start + q.length →
          ∃ t, exec .release s = .next t ∧ ChangesOnly [.port] s t ∧
            Answered s t (reply 5 (recordTag r) .badField (.release))) ∧
        (q.birth ≤ v.openEpoch → q.start + q.length ≤ v.size →
          let kept := match s.newest i with
            | none => 0
            | some n => if n < q.birth then 0 else min q.blocks (4294967295 - v.retained)
          let j := joinExtent v.current { start := q.start, length := q.length }
          ∃ t w, exec .release s = .next t ∧ t.adm = s.adm ∧
            Answered s t (reply 5 (recordTag r)
              (if (s.findOwner q.owner).isSome = true then .ok else .untracked)
              (.release (((s.findOwner q.owner).map (·.used)).getD 0 - q.blocks)
                (q.blocks - kept) kept)) ∧
            (s.findOwner q.owner = none → t.owners = s.owners) ∧
            (∀ o, s.findOwner q.owner = some o →
              t.findOwner q.owner = some (s.reevaluate
                { o with used := o.used - q.blocks, lastCharge := s.time.uptime }) ∧
              (o.used < q.blocks → Raised s t .usageUnderflow q.owner.toNat)) ∧
            OthersKept q.owner s t ∧ t.vol i = some w ∧
            ((v.limit = 4294967295 ∨ v.retained + kept ≤ v.limit) →
              w.retained = v.retained + kept ∧
              (kept = 0 → t.cat.snaps = s.cat.snaps) ∧
              ∀ n x, 0 < kept → s.newest i = some n → s.findSnap i n = some x →
                let added := insertBucket { birth := q.birth, blocks := kept } x.buckets
                (t.cat.snaps = s.cat.snaps.map fun y =>
                  if y.slot = i ∧ y.epoch = n then { y with buckets := added.1 } else y) ∧
                (added.2 = true → Raised s t .bucketMerge v.id)) ∧
            (q.length = 0 ∨ v.fullScan = true →
              w.current = v.current ∧ w.fullScan = v.fullScan) ∧
            (q.length ≠ 0 → v.fullScan = false → j.pieces ≤ s.poolFree + j.absorbed →
              w.current = j.list ∧ w.fullScan = false) ∧
            (q.length ≠ 0 → v.fullScan = false → s.poolFree + j.absorbed < j.pieces →
              w.current = [] ∧ w.fullScan = true ∧ Raised s t .listOverflow v.id)))) ∧
  ∀ (s : State) (r : Bytes),
    let refused := fun (c : Instr) (kind : Nat) (status : Status) (body : Body) =>
      ∃ t, exec c s = .next t ∧ ChangesOnly [.port] s t ∧
        Answered s t (reply kind (recordTag r) status body)
    (∀ q, Takes s 3 r → parseCommit r = some q →
      (invalidOwner q.owner = true ∨ 16777215 < q.m → refused .commit 3 .badField (.commit)) ∧
      (invalidOwner q.owner = false → q.m ≤ 16777215 →
        (q.length ≠ 0 → q.volume = 0 → refused .commit 3 .badField (.commit)) ∧
        (q.length ≠ 0 → q.volume ≠ 0 → s.findVol q.volume = none →
          refused .commit 3 .noSuch (.commit)) ∧
        (∀ i v, q.length ≠ 0 → q.volume ≠ 0 → s.findVol q.volume = some (i, v) →
          v.size < q.start + q.length → refused .commit 3 .badField (.commit)) ∧
        ∀ e, q.handle ≠ 0 → s.entryByHandle q.handle = some e →
          (q.length = 0 ∨ (q.volume ≠ 0 ∧ ∃ i v, s.findVol q.volume = some (i, v) ∧
            q.start + q.length ≤ v.size)) →
          (e.owner ≠ q.owner ∨ e.origin ≠ .write ∨ (q.length ≠ 0 ∧ q.volume ≠ e.volume)) →
          refused .commit 3 .badField (.commit))) ∧
    (∀ q, Takes s 21 r → parseAmend r = some q →
      let owner : Bool := q.table == 1 && q.field ≤ 1
      let volume : Bool := q.table == 4 && 2 ≤ q.field && q.field ≤ 4
      let snapshot : Bool := q.table == 5 && q.field == 5
      let formed : Bool := (owner || volume || snapshot) && q.condition ≤ 4 && q.action ≤ 1 &&
        (!owner || (q.key ≤ 4294967295 && !invalidOwner (BitVec.ofNat 32 q.key))) &&
        (!volume || q.key ≤ 7) && (!snapshot || q.key / 4294967296 != 0)
      (formed = false → refused .amend 21 .badField (.amend)) ∧
      (formed = true → owner = false → q.action = 1 → refused .amend 21 .badField (.amend)) ∧
      (formed = true → owner = true → s.findOwner (BitVec.ofNat 32 q.key) = none →
        refused .amend 21 .noSuch (.amend)) ∧
      (formed = true → snapshot = true → q.action = 0 →
        (s.findVol (q.key / 4294967296)).all (fun p =>
          (s.findSnap p.1 (q.key % 4294967296)).isNone) = true →
        refused .amend 21 .noSuch (.amend)) ∧
      (∀ o, formed = true → owner = true → s.findOwner (BitVec.ofNat 32 q.key) = some o →
        q.conditionHolds (BitVec.ofNat 32 ((o.override.map fun l =>
          if q.field = 0 then l.soft else l.hard).getD 4294967295)) = false →
        refused .amend 21 .mismatch (.amend)) ∧
      (∀ i v x, formed = true → snapshot = true → q.action = 0 →
        s.findVol (q.key / 4294967296) = some (i, v) →
        s.findSnap i (q.key % 4294967296) = some x →
        q.conditionHolds (BitVec.ofNat 32 x.tag) = false → refused .amend 21 .mismatch (.amend)) ∧
      ∀ i : Fin 8, formed = true → volume = true → q.action = 0 → q.key = i.val →
        (s.vol i = none → refused .amend 21 .noSuch (.amend)) ∧
        ∀ v, s.vol i = some v →
          let old := BitVec.ofNat 32 (if q.field = 2 then v.limit
            else if q.field = 3 then v.autoExpire.toNat else v.dupEnable.toNat)
          let new := (old &&& ~~~ q.writeMask) ||| (q.value &&& q.writeMask)
          (q.conditionHolds old = false → refused .amend 21 .mismatch (.amend)) ∧
          (q.conditionHolds old = true → 3 ≤ q.field → 1 < new.toNat →
            refused .amend 21 .badField (.amend))) ∧
    (∀ q, Takes s 24 r → parseLoadVolume r = some q →
      (q.volume = 0 ∨ q.size = 0 ∨ q.openEpoch = 0 ∨ 3 < q.profile ∨ 1 < q.autoExpire ∨
        1 < q.dupEnable ∨ 1 < q.basePresent ∨
        (q.basePresent = 1 ∧ (q.base = 0 ∨ q.openEpoch ≤ q.base)) ∨
        (s.findVol q.volume).isSome = true → refused .loadVolume 24 .badField (.loadVolume)) ∧
      (q.volume ≠ 0 → q.size ≠ 0 → q.openEpoch ≠ 0 → q.profile ≤ 3 → q.autoExpire ≤ 1 →
        q.dupEnable ≤ 1 → (q.basePresent = 0 ∨ q.basePresent = 1 ∧ q.base ≠ 0 ∧
          q.base < q.openEpoch) → s.findVol q.volume = none →
        (∀ i, (s.vol i).isSome = true) → refused .loadVolume 24 .full (.loadVolume))) ∧
    (∀ q, Takes s 25 r → parseLoadSnapshot r = some q →
      (SnapKind.ofCode (q.kindHold % 128) = none ∨ q.volume = 0 ∨ q.epoch = 0 →
        refused .loadSnapshot 25 .badField (.loadSnapshot)) ∧
      ((SnapKind.ofCode (q.kindHold % 128)).isSome = true → q.volume ≠ 0 → q.epoch ≠ 0 →
        (s.findVol q.volume = none → refused .loadSnapshot 25 .noSuch (.loadSnapshot)) ∧
        ∀ i v, s.findVol q.volume = some (i, v) →
          let listed : Bool := birthsAscend q.buckets &&
            q.buckets.all (fun b => decide (b.birth ≤ q.epoch ∧ b.blocks ≠ 0)) &&
            decide (bucketTotal q.buckets + v.retained ≤ 4294967295)
          (v.openEpoch ≤ q.epoch ∨ (∃ n, s.newest i = some n ∧ q.epoch ≤ n) ∨ listed = false →
            refused .loadSnapshot 25 .badField (.loadSnapshot)) ∧
          (q.epoch < v.openEpoch → (∀ n, s.newest i = some n → n < q.epoch) → listed = true →
            256 ≤ s.cat.snaps.length → refused .loadSnapshot 25 .full (.loadSnapshot)))) ∧
    ∀ q, Takes s 26 r → parseLoadOwner r = some q →
      (invalidOwner q.owner = true ∨ 1 < q.overridePresent →
        refused .loadOwner 26 .badField (.loadOwner)) ∧
      (invalidOwner q.owner = false → q.overridePresent ≤ 1 → s.classOf q.owner = none →
        refused .loadOwner 26 .untracked (.loadOwner))

/-- The timer steps of the Owner Table and the reservation table. A lease that has come removes its entry,
returns the blocks and raises LEASE_EXPIRED (R28). The end of a warm-up removes its deadline and
re-evaluates the record (R7). A grace deadline that has come re-evaluates the record (R17), once for a
running deadline: an expiry that has been taken is not taken again (log 11). Before the deadline, and for a
slot or an owner without a record, each changes nothing.
A record that has to be made in a full Owner Table (R5, R6). The evictable record with the oldest last
charge time, of equal ones the one with the lower owner ID, gives way to it: on a granted RESERVE (R31), a LATE
COMMIT (R39), a granted RESTORE_GO (R43) and a LOAD_OWNER (R22). With nothing evictable the COMMIT goes
uncharged, and the others are refused FULL: no record, no entry and no count changes, and the context of the
job is freed. -/
def Obligations.OwnerTimersAndTheFullTable : Prop :=
  (∀ s : State, s.rst = false →
    (∀ slot, s.entryInSlot slot = none → exec (.leaseExpiry slot) s = .next s) ∧
    (∀ slot e, s.entryInSlot slot = some e →
      (s.passed e.lease = false → exec (.leaseExpiry slot) s = .next s) ∧
      ∀ o, s.passed e.lease = true → s.findOwner e.owner = some o →
        ∃ t, exec (.leaseExpiry slot) s = .next t ∧
          t.adm = { s.adm with entries := s.adm.entries.filter (·.slot != e.slot) } ∧
          t.findOwner e.owner =
            some (s.reevaluate { o with reserved := o.reserved - e.blocks }) ∧
          OthersKept e.owner s t ∧ Raised s t .leaseExpired e.owner.toNat ∧
          ChangesOnly [.owners, .adm, .port] s t) ∧
    (∀ id, s.findOwner id = none → exec (.warmUpEnd id) s = .next s ∧
      exec (.graceDeadlineExpiry id) s = .next s) ∧
    ∀ id o, s.findOwner id = some o →
      (s.passed o.warmUp = true → ∃ t, exec (.warmUpEnd id) s = .next t ∧
        t.findOwner id = some (s.reevaluate { o with warmUp := none }) ∧ OthersKept id s t ∧
        ChangesOnly [.owners] s t) ∧
      (s.passed o.warmUp = false → exec (.warmUpEnd id) s = .next s) ∧
      (s.passed o.grace = true → o.graceTaken = false →
        ∃ t, exec (.graceDeadlineExpiry id) s = .next t ∧
          t.findOwner id = some (s.reevaluate { o with graceTaken := true }) ∧
          OthersKept id s t ∧ ChangesOnly [.owners] s t) ∧
      (s.passed o.grace = false ∨ o.graceTaken = true →
        exec (.graceDeadlineExpiry id) s = .next s)) ∧
  ∀ (s : State) (r : Bytes), OwnersOrdered s → s.owners.length = 4096 →
    let slot := lowestFreeSlot 0 s.adm.entries
    let handle := nextHandle (s.adm.entries.map (·.handle)) 513 s.adm.handleCounter
    (∀ (q : ReserveReq) (cls : Fin 8), Takes s 1 r → parseReserve r = some q →
      invalidOwner q.owner = false → q.volume ≠ 0 → 1 ≤ q.n → q.n ≤ 16777215 →
      (s.findVol q.volume).isSome = true → s.classOf q.owner = some cls →
      s.findOwner q.owner = none →
      let u := newRecord s q.owner cls
      let limits := s.effectiveLimits u
      let lease := s.time.uptime + (s.classRec cls).lease * 1000
      let o := s.reevaluate { u with reserved := q.n }
      q.n ≤ limits.hard → slot < 512 →
      (∀ v, IsVictim s v → ∃ t, exec .reserve s = .next t ∧ Replaced s t v o ∧
        t.adm = {
          entries := putEntry { slot, handle, owner := q.owner, blocks := q.n, volume := q.volume,
                                lease := some lease, origin := .write,
                                grantTime := s.time.uptime } s.adm.entries
          handleCounter := handle } ∧
        Answered s t (reply 1 (recordTag r) (if limits.soft < q.n then .soft else .ok)
          (.reserve handle (some lease) 0 limits.soft limits.hard (s.quotaState o))) ∧
        ChangesOnly [.owners, .adm, .port] s t) ∧
      ((∀ x ∈ s.owners, ¬Evictable s x) → ∃ t, exec .reserve s = .next t ∧
        ChangesOnly [.port] s t ∧ Answered s t (reply 1 (recordTag r) .full
          (.reserve 0 none 0 limits.soft limits.hard (s.quotaState u))))) ∧
    (∀ (q : CommitReq) (cls : Fin 8), Takes s 3 r → parseCommit r = some q →
      invalidOwner q.owner = false → q.m ≤ 16777215 → s.extentCheck q = none →
      (q.handle = 0 ∨ s.entryByHandle q.handle = none) → s.classOf q.owner = some cls →
      s.findOwner q.owner = none →
      let p := s.reevaluate { newRecord s q.owner cls with used := q.m }
      (∀ v, IsVictim s v → ∃ t, exec .commit s = .next t ∧ Replaced s t v p ∧ t.adm = s.adm ∧
        Raised s t .lateCommit q.owner.toNat ∧
        Answered s t (reply 3 (recordTag r) .late (.commit q.m q.m (s.quotaState p)))) ∧
      ((∀ x ∈ s.owners, ¬Evictable s x) → ∃ t, exec .commit s = .next t ∧ t.owners = s.owners ∧
        t.adm = s.adm ∧ Raised s t .lateCommit q.owner.toNat ∧
        ∃ used quota, Answered s t (reply 3 (recordTag r) .late (.commit 0 used quota)))) ∧
    (∀ (q : JobReq) (c : Fin 4) (x : Context) (cls : Fin 8), Takes s 13 r →
      parseJob r = some q → q.context = c.val → s.context c = some x → x.job = q.job →
      x.state = .assembling → x.k ≤ x.items.length → x.tracked = true →
      s.classOf x.owner = some cls → s.findOwner x.owner = none →
      let n := (x.items.map (·.length)).sum
      let u := newRecord s x.owner cls
      let limits := s.effectiveLimits u
      let o := s.reevaluate { u with reserved := n }
      n ≤ limits.hard → n ≤ 4294967295 → slot < 512 →
      (∀ v, IsVictim s v → ∃ t y, exec .restoreGo s = .next t ∧ Replaced s t v o ∧
        t.adm = {
          entries := putEntry { slot, handle, owner := x.owner, blocks := n,
                                volume := s.volumeId x.targetSlot, lease := none,
                                origin := .restore c, grantTime := s.time.uptime } s.adm.entries
          handleCounter := handle } ∧
        t.context c = some y ∧ y.state = .running ∧ y.handle = some handle ∧
        Answered s t (reply 13 (recordTag r) (if limits.soft < n then .soft else .ok)
          (.restoreGo (n := n) (view := 0) (soft := limits.soft) (hard := limits.hard)
            (quota := s.quotaState o)))) ∧
      ((∀ x ∈ s.owners, ¬Evictable s x) → ∃ t, exec .restoreGo s = .next t ∧
        t.context c = none ∧ t.owners = s.owners ∧ t.adm = s.adm ∧ t.dup = s.dup ∧
        Answered s t (reply 13 (recordTag r) .full
          (.restoreGo (n := n) (view := 0) (soft := limits.soft) (hard := limits.hard)
            (quota := s.quotaState u))))) ∧
    ∀ (q : LoadOwnerReq) (cls : Fin 8), Takes s 26 r → parseLoadOwner r = some q →
      invalidOwner q.owner = false → q.overridePresent ≤ 1 → s.classOf q.owner = some cls →
      s.findOwner q.owner = none →
      let o := s.reevaluate { newRecord s q.owner cls with
        used := q.used, warmUp := none, reportTime := none,
        override := if q.overridePresent = 1 then some { soft := q.soft, hard := q.hard }
          else none }
      (∀ v, IsVictim s v → ∃ t, exec .loadOwner s = .next t ∧ Replaced s t v o ∧
        Answered s t (reply 26 (recordTag r) .ok (.loadOwner cls.val 4096)) ∧
        ChangesOnly [.owners, .port] s t) ∧
      ((∀ x ∈ s.owners, ¬Evictable s x) → ∃ t, exec .loadOwner s = .next t ∧
        ChangesOnly [.port] s t ∧ Answered s t (reply 26 (recordTag r) .full (.loadOwner)))

/-! ### Snapshots, holds and the hold lock -/

/-- SNAPSHOT of kind SCHEDULED or MANUAL (R73, R74): the record takes the open epoch, which rises by one; the
first check of R73 that fails answers the request and changes nothing. -/
def Obligations.SnapshotTakesTheOpenEpoch : Prop :=
  ∀ (s : State) (r : Bytes) (q : SnapshotReq) (kind : SnapKind) (i : Fin 8) (v : Volume),
    Takes s 6 r → parseSnapshot r = some q → SnapKind.ofCode q.kind = some kind →
    q.volume ≠ 0 → s.findVol q.volume = some (i, v) →
    (kind ≠ .duplication → v.dup ≠ .cutPending → v.openEpoch ≠ 4294967295 →
      v.overLimit = false → s.cat.snaps.length < 256 →
      ∃ t, exec .snapshot s = .next t ∧
        t.cat = { s.cat with
          vols := s.cat.vols.set i (some { v with openEpoch := v.openEpoch + 1 })
          snaps := s.cat.snaps ++ [{ slot := i, epoch := v.openEpoch, kind, tag := q.label,
                                     created := s.time.uptime, hold := false, pin := false,
                                     refs := 0, buckets := [] }] } ∧
        Answered s t (reply 6 (recordTag r) .ok (.snapshot v.openEpoch)) ∧
        ChangesOnly [.cat, .port] s t) ∧
    ∀ status,
      (if kind ≠ .duplication ∧ v.dup = .cutPending then some Status.busy
        else if kind = .duplication ∧ v.dup ≠ .cutPending then some .notExpected
        else if v.openEpoch = 4294967295 then some .epochExhausted
        else if v.overLimit = true then some .reserveFull
        else if 256 ≤ s.cat.snaps.length then some .full
        else none) = some status →
      ∃ t, exec .snapshot s = .next t ∧ ChangesOnly [.port] s t ∧
        Answered s t (reply 6 (recordTag r) status (.snapshot))

/-- The deletion step, by request and by auto-expire. DELETE_SNAPSHOT of a deletable snapshot (R78, R79): the
buckets whose birth the next older snapshot contains join its list by the rule of R76, each merge raising
BUCKET_MERGE, the others are freed and leave the retained count, R70 clears the flags of a volume no longer over
its limit, and the record is gone; other snapshots, the open epoch and other volumes stay. A snapshot that is
not deletable is answered HELD with its marks and roles (R99). EXPIRY_WAITING_EVALUATION (R82, R83): without
notice room nothing happens. With room every volume whose expiry is waiting is evaluated in slot order, by the
table of R82: within its limit, or without auto-expire or a candidate, it loses the mark, and over its limit
without one RESERVE_OVER is raised once; a candidate is deleted and reported by an EXPIRED notice, and so on
until the volume is within its limit, no candidate is left, or the room is used up and it stays waiting. -/
def Obligations.DeletionByRequestAndByExpiry : Prop :=
  (∀ (s : State) (r : Bytes) (q : DeleteReq) (i : Fin 8) (v : Volume) (x : Snapshot),
    Takes s 7 r → parseDelete r = some q → q.volume ≠ 0 → s.findVol q.volume = some (i, v) →
    s.findSnap i q.epoch = some x →
    ((x.hold = true ∨ x.pin = true ∨ x.refs ≠ 0) →
      ∃ t, exec .deleteSnapshot s = .next t ∧ ChangesOnly [.port] s t ∧
        Answered s t (reply 7 (recordTag r) .held
          (.deleteSnapshot (hold := x.hold) (pin := x.pin) (refs := x.refs)
            (contexts := (s.restoresOf i x.epoch).length) (send := s.holdsSend i x.epoch)
            (base := s.holdsBase i x.epoch)))) ∧
    (x.hold = false → x.pin = false → x.refs = 0 →
      let older := s.nextOlder i x.epoch
      let kept := x.buckets.filter fun b => older.any fun p => b.birth ≤ p
      let moved := bucketTotal kept
      let freed := bucketTotal x.buckets - moved
      let w := { v with retained := v.retained - freed }
      ∃ t, exec .deleteSnapshot s = .next t ∧
        Answered s t (reply 7 (recordTag r) .ok
          (.deleteSnapshot (freed := freed) (moved := moved)
            (receiver := if moved = 0 then 0 else older.getD 0))) ∧
        t.findSnap i q.epoch = none ∧
        t.vol i = some (if w.overLimit = true then w
          else { w with overReported := false, expiryWaiting := false }) ∧
        (∀ p y, older = some p → s.findSnap i p = some y →
          t.findSnap i p = some { y with buckets := (insertAll kept y.buckets).1 } ∧
          let merges := (insertAll kept y.buckets).2
          (merges = 0 → t.port.events = s.port.events) ∧
          (0 < merges → t.port.events[EventKind.index .bucketMerge] =
            { flag := true, subject := v.id,
              count := min (s.port.events[EventKind.index .bucketMerge].count + merges) 255 })) ∧
        (∀ e, e ≠ x.epoch → older ≠ some e → t.findSnap i e = s.findSnap i e) ∧
        (∀ j, j ≠ i → t.vol j = s.vol j ∧ t.snapsOf j = s.snapsOf j) ∧
        ChangesOnly [.cat, .port] s t)) ∧
  ∀ s : State, s.rst = false →
    (s.room = false → exec .expiryWaitingEvaluation s = .next s) ∧
    (s.room = true → ∃ t, exec .expiryWaitingEvaluation s = .next t ∧
      ChangesOnly [.cat, .port] s t ∧
      ∀ i v, s.vol i = some v →
        (v.expiryWaiting = false → t.vol i = some v ∧ t.snapsOf i = s.snapsOf i) ∧
        (v.expiryWaiting = true →
          (v.overLimit = false → t.vol i = some { v with expiryWaiting := false }) ∧
          (v.overLimit = true → v.autoExpire = false ∨ s.candidate i = none →
            t.vol i = some { v with expiryWaiting := false, overReported := true } ∧
            (v.overReported = false →
              t.port.events[EventKind.index .reserveOver].flag = true) ∧
            ((∀ j, j ≠ i → ∀ z, s.vol j = some z → z.expiryWaiting = false) →
              if v.overReported = true then t.port.events = s.port.events
              else Raised s t .reserveOver v.id)) ∧
          (∃ w, t.vol i = some w ∧ (w.expiryWaiting = true → t.room = false) ∧
            (w.expiryWaiting = false → w.overLimit = false ∨
              (w.overReported = true ∧ (w.autoExpire = false ∨ t.candidate i = none)))) ∧
          ((∀ j, j < i → ∀ z, s.vol j = some z → z.expiryWaiting = false) →
            ∀ e x, v.overLimit = true → v.autoExpire = true → s.candidate i = some e →
              s.findSnap i e = some x →
              let moved := bucketTotal (x.buckets.filter fun b =>
                (s.nextOlder i e).any fun p => b.birth ≤ p)
              let freed := bucketTotal x.buckets - moved
              t.findSnap i e = none ∧ Places s t (noticeOf 4 (.expired v.id e freed)) ∧
              ∃ w, t.vol i = some w ∧ w.retained ≤ v.retained - freed ∧
                (v.retained - freed ≤ v.limit → w = { v with
                  retained := v.retained - freed
                  overReported := false, expiryWaiting := false }))))

/-- HOLD and PIN (R92, R93): the mark is set or cleared as the action says, and the completion carries the
marks after the request; a CLOSED hold lock answers every HOLD with LOCKED and does not matter to PIN. A
mark cleared on a volume over its limit starts the auto-expire evaluation, which may change more. -/
def Obligations.HoldAndPinSetTheirMarks : Prop :=
  ∀ (s : State) (r : Bytes) (q : MarkReq) (i : Fin 8) (v : Volume) (x : Snapshot),
    parseMark r = some q → q.volume ≠ 0 → q.action ≤ 1 →
    s.findVol q.volume = some (i, v) → s.findSnap i q.epoch = some x →
    let set := q.action == 0
    (Takes s 8 r →
      (s.cat.lock = .closed → ∃ t, exec .hold s = .next t ∧ ChangesOnly [.port] s t ∧
        Answered s t (reply 8 (recordTag r) .locked (.marks))) ∧
      (s.cat.lock ≠ .closed → ∃ t, exec .hold s = .next t ∧
        Answered s t (reply 8 (recordTag r) .ok
          (.marks set x.pin x.refs (!set && !x.pin && x.refs == 0))) ∧
        ((q.action = 0 ∨ x.hold = false ∨ v.overLimit = false) →
          t.cat = { s.cat with snaps := s.cat.snaps.map fun y =>
            if y.slot = i ∧ y.epoch = q.epoch then { y with hold := set } else y }) ∧
        ChangesOnly [.cat, .port] s t)) ∧
    (Takes s 9 r → ∃ t, exec .pin s = .next t ∧
      Answered s t (reply 9 (recordTag r) .ok
        (.marks x.hold set x.refs (!x.hold && !set && x.refs == 0))) ∧
      ((q.action = 0 ∨ x.pin = false ∨ v.overLimit = false) →
        t.cat = { s.cat with snaps := s.cat.snaps.map fun y =>
          if y.slot = i ∧ y.epoch = q.epoch then { y with pin := set } else y }) ∧
      ChangesOnly [.cat, .port] s t)

/-- LOCK_HOLDS (R101): the lock is CLOSED after it, the completion is OK with CLOSED and whether this request
closed it, and no snapshot and no volume changes; with the lock CLOSED already nothing changes. -/
def Obligations.LockHoldsClosesTheLock : Prop :=
  ∀ (s : State) (r : Bytes), Takes s 10 r → parseEmpty r = some () →
    ∃ t, exec .lockHolds s = .next t ∧ t.cat.lock = .closed ∧
      Answered s t (reply 10 (recordTag r) .ok
        (.lockHolds .closed (decide (s.cat.lock ≠ .closed)))) ∧
      t.cat.snaps = s.cat.snaps ∧ t.cat.vols = s.cat.vols ∧
      (s.cat.lock = .closed → t.cat = s.cat) ∧ ChangesOnly [.cat, .port] s t

/-- A CLOSED hold lock stands until a reset (R91, R100, R102): in SERVING, whatever command but a power-on
reset or RESTART is carried out, the lock stays CLOSED, no snapshot that is held goes, and none that was
not held is held after it. (Snapshots of a volume have distinct epochs, as RetainedCounted says.) -/
def Obligations.ClosedLockKeepsEveryHold : Prop :=
  ∀ (c : Instr) (s t : State), RetainedCounted s → s.part = .serving → s.cat.lock = .closed →
    (∀ n m, c ≠ .powerOnReset n m) → c ≠ .restart → exec c s = .next t →
    t.cat.lock = .closed ∧
    (∀ x ∈ s.cat.snaps, x.hold = true →
      ∃ y ∈ t.cat.snaps, y.slot = x.slot ∧ y.epoch = x.epoch ∧ y.hold = true) ∧
    ∀ y ∈ t.cat.snaps, y.hold = true →
      ∃ x ∈ s.cat.snaps, x.slot = y.slot ∧ x.epoch = y.epoch ∧ x.hold = true

/-! ### Restore jobs -/

/-- RESTORE_OPEN (R94, R95, R106, R107): the lowest FREE context becomes ASSEMBLING with the next job number
and the assembly deadline, and the source snapshot takes a reference; with no context FREE the answer is
FULL and nothing changes. -/
def Obligations.RestoreOpenFillsAContext : Prop :=
  ∀ (s : State) (r : Bytes) (q : OpenReq) (i j : Fin 8) (v w : Volume) (x : Snapshot),
    Takes s 11 r → parseOpen r = some q → invalidOwner q.owner = false → q.source ≠ 0 →
    q.target ≠ 0 → 1 ≤ q.k → q.k ≤ 32 → s.findVol q.source = some (i, v) →
    s.findVol q.target = some (j, w) → s.findSnap i q.epoch = some x →
    ((∀ c, (s.context c).isSome = true) → ∃ t, exec .restoreOpen s = .next t ∧
      ChangesOnly [.port] s t ∧ Answered s t (reply 11 (recordTag r) .full (.restoreOpen))) ∧
    ∀ c, s.context c = none → (∀ d, d < c → (s.context d).isSome = true) →
      let job := if 65535 ≤ s.rsc.jobCounter then 1 else s.rsc.jobCounter + 1
      let deadline := s.time.uptime + s.cfg.assemblyTimeout * 1000
      let tracked := (s.classOf q.owner).isSome
      ∃ t, exec .restoreOpen s = .next t ∧
        t.rsc = { s.rsc with
          contexts := s.rsc.contexts.set c (some
            { state := .assembling, job, owner := q.owner, tracked, sourceSlot := i,
              sourceEpoch := q.epoch, targetSlot := j, k := q.k, items := [],
              deadline := some deadline, handle := none, outstanding := 0, failureSeen := false,
              endDue := false, timeoutDue := false, charged := 0 })
          jobCounter := job } ∧
        t.cat = { s.cat with snaps := s.cat.snaps.map fun y =>
          if y.slot = i ∧ y.epoch = q.epoch then { y with refs := y.refs + 1 } else y } ∧
        Answered s t (reply 11 (recordTag r) (if tracked then .ok else .untracked)
          (.restoreOpen c.val job (some deadline))) ∧
        ChangesOnly [.rsc, .cat, .port] s t

/-- RESTORE_ITEM of an ASSEMBLING context (R108, R109, R110): an item that passes joins the job PENDING and
moves the deadline; the first abort condition that holds frees the context and gives its source reference
back. -/
def Obligations.RestoreItemJoinsOrAbortsTheJob : Prop :=
  ∀ (s : State) (r : Bytes) (q : ItemReq) (c : Fin 4) (x : Context),
    Takes s 12 r → parseItem r = some q → q.context = c.val → q.length ≠ 0 →
    s.context c = some x → x.job = q.job → x.state = .assembling →
    (x.items.length < x.k → q.birth ≤ x.sourceEpoch →
      q.source + q.length ≤ s.sizeOf x.sourceSlot →
      q.target + q.length ≤ s.sizeOf x.targetSlot →
      (∀ last, x.items.getLast? = some last → last.target + last.length ≤ q.target) →
      ∃ t, exec .restoreItem s = .next t ∧
        t.rsc = { s.rsc with contexts := s.rsc.contexts.set c (some { x with
          items := x.items ++ [{ source := q.source, length := q.length, birth := q.birth,
                                 target := q.target, state := .pending }]
          deadline := some (s.time.uptime + s.cfg.assemblyTimeout * 1000)
          timeoutDue := false }) } ∧
        Answered s t (reply 12 (recordTag r) .ok
          (.restoreItem (index := x.items.length) (received := x.items.length + 1))) ∧
        ChangesOnly [.rsc, .port] s t) ∧
    ∀ reason,
      (if x.k ≤ x.items.length then some AbortReason.extra
        else if x.sourceEpoch < q.birth then some .birth
        else if s.sizeOf x.sourceSlot < q.source + q.length then some .sourceRange
        else if s.sizeOf x.targetSlot < q.target + q.length then some .targetRange
        else if x.items.getLast?.any (fun last => q.target < last.target + last.length) then
          some .order
        else none) = some reason →
      ∃ t, exec .restoreItem s = .next t ∧ t.context c = none ∧
        Answered s t (reply 12 (recordTag r) .aborted
          (.restoreItem (reason := reason) (wouldBe := x.items.length)
            (heldItems := x.items.length))) ∧
        ((∀ v, s.vol x.sourceSlot = some v → v.overLimit = false) →
          t.cat = { s.cat with snaps := s.cat.snaps.map fun y =>
            if y.slot = x.sourceSlot ∧ y.epoch = x.sourceEpoch then { y with refs := y.refs - 1 }
            else y }) ∧
        ChangesOnly [.rsc, .cat, .port] s t

/-- RESTORE_GO of an ASSEMBLING context (R112, R113, R160): with fewer than k items the job is aborted SHORT
and the context freed; with all items of an untracked owner the context is RUNNING without a reservation
and counts as a running restore, which suspends issue in an OPEN window without a last resume time. -/
def Obligations.RestoreGoOfAnUntrackedOwner : Prop :=
  ∀ (s : State) (r : Bytes) (q : JobReq) (c : Fin 4) (x : Context),
    Takes s 13 r → parseJob r = some q → q.context = c.val → s.context c = some x →
    x.job = q.job → x.state = .assembling →
    (x.items.length < x.k → ∃ t, exec .restoreGo s = .next t ∧ t.context c = none ∧
      t.dup = s.dup ∧ t.owners = s.owners ∧ t.adm = s.adm ∧
      Answered s t (reply 13 (recordTag r) .aborted
        (.restoreGo (reason := .short) (heldItems := x.items.length)))) ∧
    (x.k ≤ x.items.length → x.tracked = false → ∃ t y, exec .restoreGo s = .next t ∧
      t.context c = some y ∧ y.state = .running ∧ y.handle = none ∧ y.deadline = none ∧
      y.job = x.job ∧ t.dup.running = s.dup.running + 1 ∧
      (s.dup.window = .opened → s.dup.suspension = .issuing → s.dup.lastResume = none →
        t.dup.suspension = .suspended) ∧
      Answered s t (reply 13 (recordTag r) .untracked (.restoreGo)) ∧
      ChangesOnly [.rsc, .dup, .port] s t)

/-- RESTORE_GO of a tracked owner with all items (R43, R113): the whole job is admitted by the table of R30. A
grant makes a RESTORE entry without a lease and the context RUNNING with its handle; OVER_HARD frees the
context and leaves the reservation table. (A new record in a full Owner Table: OwnerTimersAndTheFullTable; LAPSED
and a full reservation table are not said here.) -/
def Obligations.RestoreGoAdmitsTheWholeJob : Prop :=
  ∀ (s : State) (r : Bytes) (q : JobReq) (c : Fin 4) (x : Context) (cls : Fin 8),
    Takes s 13 r → parseJob r = some q → q.context = c.val → s.context c = some x →
    x.job = q.job → x.state = .assembling → x.k ≤ x.items.length → x.tracked = true →
    s.classOf x.owner = some cls →
    let n := (x.items.map (·.length)).sum
    let u := s.reevaluate ((s.findOwner x.owner).getD (s.freshOwner x.owner cls))
    let limits := s.effectiveLimits u
    let after := min (u.view + n) 4294967295
    let slot := lowestFreeSlot 0 s.adm.entries
    let handle := nextHandle (s.adm.entries.map (·.handle)) 513 s.adm.handleCounter
    let o := s.reevaluate { u with reserved := u.reserved + n, lastCharge := s.time.uptime }
    (limits.hard < after → ∃ t, exec .restoreGo s = .next t ∧ t.context c = none ∧
      t.adm = s.adm ∧ t.dup = s.dup ∧
      Answered s t (reply 13 (recordTag r) .overHard
        (.restoreGo (n := n) (view := u.view) (soft := limits.soft) (hard := limits.hard)
          (quota := s.quotaState u)))) ∧
    (after ≤ limits.hard → ¬(limits.soft < after ∧ s.passed u.grace = true) →
      u.reserved + n ≤ 4294967295 → slot < 512 →
      ((s.findOwner x.owner).isSome = true ∨ s.owners.length < 4096) →
      ∃ t y, exec .restoreGo s = .next t ∧
        t.adm = {
          entries := putEntry { slot, handle, owner := x.owner, blocks := n,
                                volume := s.volumeId x.targetSlot, lease := none,
                                origin := .restore c, grantTime := s.time.uptime } s.adm.entries
          handleCounter := handle } ∧
        t.findOwner x.owner = some o ∧ OthersKept x.owner s t ∧
        t.context c = some y ∧ y.state = .running ∧ y.handle = some handle ∧
        t.dup.running = s.dup.running + 1 ∧
        Answered s t (reply 13 (recordTag r) (if limits.soft < after then .soft else .ok)
          (.restoreGo (n := n) (view := u.view) (soft := limits.soft) (hard := limits.hard)
            (quota := s.quotaState o))))

/-- RESTORE_CANCEL (R119): an ASSEMBLING context is freed; a RUNNING one with items OUTSTANDING becomes
DRAINING; a DRAINING one stays. -/
def Obligations.RestoreCancelFreesOrDrains : Prop :=
  ∀ (s : State) (r : Bytes) (q : JobReq) (c : Fin 4) (x : Context),
    Takes s 14 r → parseJob r = some q → q.context = c.val → s.context c = some x →
    x.job = q.job →
    (x.state = .assembling → ∃ t, exec .restoreCancel s = .next t ∧ t.context c = none ∧
      t.owners = s.owners ∧ t.adm = s.adm ∧ t.dup = s.dup ∧
      Answered s t (reply 14 (recordTag r) .ok (.restoreCancel (items := x.items.length)))) ∧
    (x.state ≠ .assembling → x.outstanding ≠ 0 → x.endDue = false →
      ∃ t, exec .restoreCancel s = .next t ∧
        t.context c = some { x with state := .draining } ∧
        (∀ d, d ≠ c → t.context d = s.context d) ∧
        Answered s t (reply 14 (recordTag r) .ok
          (.restoreCancel (outstanding := x.outstanding))) ∧
        ChangesOnly [.rsc, .port] s t)

/-- COPIED of an OUTSTANDING item of a RUNNING job that does not end with it (R116 to R118): ok makes the item
COPIED and charges its length to the owner of the RESTORE entry (R44); fail makes it FAILED and the context
DRAINING and charges nothing.
(The last item and a DRAINING context: their end is RestoreEndReturnsTheResidue; the extents of
R117 are not said here.) -/
def Obligations.CopiedChargesOrDrains : Prop :=
  ∀ (s : State) (r : Bytes) (q : CopiedReq) (c : Fin 4) (x : Context) (item : Item),
    Takes s 15 r → parseCopied r = some q → q.context = c.val → q.item ≤ 31 →
    s.context c = some x → x.job = q.job → x.state = .running → x.endDue = false →
    x.items[q.item]? = some item → item.state = .outstanding →
    (q.result = 0 → x.copiedCount + 1 < x.k → ∃ t y, exec .copied s = .next t ∧
      t.context c = some y ∧ y.state = .running ∧ y.charged = x.charged + item.length ∧
      y.items[q.item]? = some { item with state := .copied } ∧
      Answered s t (reply 15 (recordTag r) .ok
        (.copied .copied (x.copiedCount + 1) (x.outstanding - 1) .running)) ∧
      (x.handle = none → t.owners = s.owners ∧ t.adm = s.adm) ∧
      ∀ h e o, x.handle = some h → s.entryByHandle h = some e → s.findOwner e.owner = some o →
        t.adm = { s.adm with entries := s.adm.entries.map fun z =>
          if z.slot = e.slot then { z with blocks := z.blocks - item.length } else z } ∧
        t.findOwner e.owner = some (s.reevaluate { o with
          reserved := o.reserved - item.length
          used := min (o.used + item.length) 4294967295
          lastCharge := s.time.uptime }) ∧ OthersKept e.owner s t) ∧
    (q.result = 1 → 2 ≤ x.outstanding → ∃ t, exec .copied s = .next t ∧
      t.context c = some { x with
        items := x.items.set q.item { item with state := .failed }
        outstanding := x.outstanding - 1
        failureSeen := true
        state := .draining } ∧
      Answered s t (reply 15 (recordTag r) .ok
        (.copied .failed x.copiedCount (x.outstanding - 1) .draining)) ∧
      ChangesOnly [.rsc, .port] s t)

/-- COPY_NOTICE (R114, R115): with notice room the first context of the round robin that may be served has
the COPY notice of its lowest PENDING item placed first; the item becomes OUTSTANDING and the context the last
served, before the round robin goes on with the room that is left. Without room, or with no such context,
nothing happens. -/
def Obligations.CopyNoticeServesTheRoundRobin : Prop :=
  ∀ s : State, s.rst = false →
    ((s.room = false ∨ ∀ c x, s.context c = some x → x.copyReady s.cfg.copyDepth = false) →
      exec .copyNotice s = .next s) ∧
    ∀ (k : Fin 4) (x : Context) (n : Nat) (item : Item), s.room = true →
      let c := s.rsc.lastServed + 1 + k
      s.context c = some x → x.copyReady s.cfg.copyDepth = true →
      (∀ j, j < k → ∀ y, s.context (s.rsc.lastServed + 1 + j) = some y →
        y.copyReady s.cfg.copyDepth = false) →
      x.items[n]? = some item → item.state = .pending →
      (∀ m z, m < n → x.items[m]? = some z → z.state ≠ .pending) →
      ∃ t, exec .copyNotice s = .next t ∧ ChangesOnly [.rsc, .port] s t ∧
        Places s t (noticeOf 1 (.copyNotice c.val n x.job (s.volumeId x.sourceSlot)
          (s.volumeId x.targetSlot) x.sourceEpoch item.source item.target item.length)) ∧
        (∃ y, t.context c = some y ∧
          y.items[n]? = some { item with state := .outstanding }) ∧
        (s.port.completions.length = 55 → t.rsc = {
          s.rsc with
          contexts := s.rsc.contexts.set c (some { x with
            items := x.items.set n { item with state := .outstanding }
            outstanding := x.outstanding + 1 })
          lastServed := c })

/-- ASSEMBLY_DEADLINE marks the timeout of an ASSEMBLING context whose deadline has come (R111; the mark and
the timeout are two steps here, log 3). ASSEMBLY_TIMEOUT, with notice room, frees the context, gives its
source reference back and places RESTORE_END with TIMEOUT (R111). -/
def Obligations.AssemblyTimesOut : Prop :=
  ∀ (s : State) (c : Fin 4) (x : Context), s.rst = false → s.context c = some x →
    (x.state = .assembling → s.passed x.deadline = true →
      ∃ t, exec (.assemblyDeadline c) s = .next t ∧
        t.rsc = { s.rsc with
          contexts := s.rsc.contexts.set c (some { x with timeoutDue := true }) } ∧
        ChangesOnly [.rsc] s t) ∧
    (s.room = false → exec (.assemblyTimeout c) s = .next s) ∧
    (x.state = .assembling → x.timeoutDue = true → s.room = true →
      ∃ t, exec (.assemblyTimeout c) s = .next t ∧ t.context c = none ∧
        (∀ d, d ≠ c → t.context d = s.context d) ∧
        ((∀ v, s.vol x.sourceSlot = some v → v.overLimit = false) →
          t.cat = { s.cat with snaps := s.cat.snaps.map fun y =>
            if y.slot = x.sourceSlot ∧ y.epoch = x.sourceEpoch then { y with refs := y.refs - 1 }
            else y }) ∧
        Places s t (noticeOf 5 (.restoreEnd c.val x.job .timeout 0 0 0)) ∧
        ChangesOnly [.rsc, .cat, .port] s t)

/-- RESTORE_END_STEP (R120, R160): with notice room a context whose end is due is freed, the residual
reservation of its owner is returned, RESTORE_END is placed with the outcome, and one restore fewer runs;
without room nothing happens.
(The source reference given back is in StepKeepsReservationsAndReferences; the resume of R160 is not said here.) -/
def Obligations.RestoreEndReturnsTheResidue : Prop :=
  ∀ (s : State) (c : Fin 4) (x : Context), s.rst = false → s.context c = some x →
    (s.room = false ∨ x.endDue = false → exec (.restoreEndStep c) s = .next s) ∧
    (s.room = true → x.endDue = true →
      let copied := (x.items.filter fun i => i.state == .copied).length
      let outcome : EndOutcome :=
        if copied = x.k then .ok else if x.failureSeen = true then .failed else .cancelled
      (x.handle = none → ∃ t, exec (.restoreEndStep c) s = .next t ∧ t.context c = none ∧
        t.owners = s.owners ∧ t.adm = s.adm ∧ t.dup.running = s.dup.running - 1 ∧
        Places s t (noticeOf 5 (.restoreEnd c.val x.job outcome copied x.charged 0))) ∧
      ∀ h e o, x.handle = some h → s.entryByHandle h = some e → s.findOwner e.owner = some o →
        ∃ t, exec (.restoreEndStep c) s = .next t ∧ t.context c = none ∧
          t.adm = { s.adm with entries := s.adm.entries.filter (·.slot != e.slot) } ∧
          t.findOwner e.owner =
            some (s.reevaluate { o with reserved := o.reserved - e.blocks }) ∧
          OthersKept e.owner s t ∧ t.dup.running = s.dup.running - 1 ∧
          Places s t (noticeOf 5 (.restoreEnd c.val x.job outcome copied x.charged e.blocks)))

/-! ### The night window and duplication -/

/-- The cut (R74, R131, R132, R146): the SNAPSHOT of kind DUPLICATION of a CUT_PENDING volume takes the open
epoch. The send role and its reference move from the old send snapshot to the new one; the current list passes
into the send list, joined into it or, with FULL_SCAN, without a base or behind a scan, as a scan from block 0,
and its spare entries return to the pool; FULL_SCAN is cleared, the cut is no longer owed and the volume is
SENDING. With nothing to send its end is due at once, and with notice room it is taken: the volume is DONE and
the base role lies at the new epoch (R153). Otherwise only the issue pass follows. (Premises that no run leaves:
epochs below the open epoch, as RetainedCounted says, a send epoch below it, no end due.)
SENT (R134, R135, R151, R152). The state u stands behind its answer: the ticket record is free, ok returns its
entries to the pool, fail gives its pieces or region back to the send list, counts the failure and stalls a
SENDING volume past its retry limit. (A volume whose end is due stays SENDING, as R153 says, and a leftover
ticket of it that fails stalls nothing, log 34.) The completion is formed from u. Then the volume is tested for
its end, a CLOSING window for its close, and an issue pass runs; with none of them u is what remains. A result
that is neither ok nor fail is BAD_FIELD, a number of no ticket NO_SUCH. -/
def Obligations.CutsAndTheirTickets : Prop :=
  (∀ (s : State) (r : Bytes) (q : SnapshotReq) (i : Fin 8) (v : Volume),
    Takes s 6 r → parseSnapshot r = some q → SnapKind.ofCode q.kind = some .duplication →
    q.volume ≠ 0 → s.findVol q.volume = some (i, v) → v.dup = .cutPending →
    v.openEpoch ≠ 4294967295 → v.overLimit = false → s.cat.snaps.length < 256 →
    RetainedCounted s → (∀ e ∈ v.sendEpoch, e < v.openEpoch) → v.endDue = false →
    let merged := appendAllOwned v.send.entries v.current
    let w : Volume := { v with
      openEpoch := v.openEpoch + 1, cutDeadline := none, cutDue := false, dup := .sending
      sendEpoch := some v.openEpoch, current := [], fullScan := false
      send := if startsScan v then .scan 0 else .extents merged.1 }
    let snaps := (s.cat.snaps.map fun y =>
        if y.slot = i ∧ v.sendEpoch = some y.epoch then { y with refs := y.refs - 1 } else y) ++
      [{ slot := i, epoch := v.openEpoch, kind := .duplication, tag := q.label,
         created := s.time.uptime, hold := false, pin := false, refs := 1, buckets := [] }]
    let u : State := { s with
      cat := { s.cat with vols := s.cat.vols.set i (some w), snaps := snaps }
      poolFree := s.poolFree + if startsScan v then v.send.entries.length + v.current.length
        else merged.2 }
    ∃ t, exec .snapshot s = .next t ∧
      Answered s t (reply 6 (recordTag r) .ok (.snapshot v.openEpoch)) ∧
      ChangesOnly [.cat, .pool, .dup, .port] s t ∧
      (u.endReached i w = false → t.cat.snaps = snaps ∧
        (∃ z, t.vol i = some z ∧ z.dup = .sending ∧ z.endDue = false ∧
          z.sendEpoch = some v.openEpoch ∧ z.base = v.base ∧ z.openEpoch = v.openEpoch + 1 ∧
          z.current = [] ∧ z.fullScan = false ∧ z.cutDeadline = none ∧ z.cutDue = false) ∧
        (u.head = none → t.cat = u.cat ∧ t.dup = u.dup ∧ t.poolFree = u.poolFree)) ∧
      (u.endReached i w = true → ∃ z, t.vol i = some z ∧ z.openEpoch = v.openEpoch + 1 ∧
        z.current = [] ∧ z.fullScan = false ∧ z.cutDeadline = none ∧ z.cutDue = false ∧
        ((z.dup = .sending ∧ z.endDue = true ∧ z.sendEpoch = some v.openEpoch ∧
            z.base = v.base ∧ t.cat.snaps = snaps) ∨
          (z.dup = .done ∧ z.endDue = false ∧ z.sendEpoch = none ∧
            z.base = some v.openEpoch)) ∧
        (s.port.eventDue = false → s.port.completions.length ≤ 54 → z.dup = .done))) ∧
  ∀ (s : State) (r : Bytes) (q : SentReq), Takes s 16 r → parseSent r = some q →
    (1 < q.result → ∃ t, exec .sent s = .next t ∧ ChangesOnly [.port] s t ∧
      Answered s t (reply 16 (recordTag r) .badField (.sent))) ∧
    (q.result ≤ 1 → (∀ k x, s.ticket k = some x → x.number ≠ q.ticket) →
      ∃ t, exec .sent s = .next t ∧ ChangesOnly [.port] s t ∧
        Answered s t (reply 16 (recordTag r) .noSuch (.sent))) ∧
    ∀ (k : Fin 16) (x : Ticket) (v : Volume), s.ticket k = some x → x.number = q.ticket →
      (∀ j, j < k → ∀ y, s.ticket j = some y → y.number ≠ q.ticket) →
      s.vol x.slot = some v → q.result ≤ 1 →
      let fail : Bool := q.result == 1
      let failures := min (v.failures + 1) 255
      let stalls : Bool := fail && v.dup == .sending && !v.endDue &&
        decide ((s.profileOf v).retryLimit < failures)
      let w : Volume :=
        if fail then { v with
          outstanding := v.outstanding - 1
          send := (giveBack x.work v.send).1
          failures := failures
          dup := if stalls then .stalled else v.dup }
        else { v with outstanding := v.outstanding - 1 }
      let u : State := { s with
        dup := { s.dup with tickets := s.dup.tickets.set k none }
        cat := { s.cat with vols := s.cat.vols.set x.slot (some w) }
        poolFree := s.poolFree + if fail then (giveBack x.work v.send).2 else x.work.entries }
      ∃ t, exec .sent s = .next t ∧ ChangesOnly [.cat, .pool, .dup, .port] s t ∧
        Answered s t (reply 16 (recordTag r) .ok (.sent v.id w.dup (u.backlogOf x.slot w)
          w.outstanding u.ticketsOut.length)) ∧
        (stalls = true → Raised s t .volumeStalled v.id) ∧
        (u.endReached x.slot w = false → v.endDue = false → u.head = none →
          (s.dup.window ≠ .closing ∨ u.ticketsOut ≠ [] → t.cat = u.cat ∧ t.dup = u.dup ∧
            t.poolFree = u.poolFree)) ∧
        (u.endReached x.slot w = true → ∃ z, t.vol x.slot = some z ∧
          ((z.dup = .done ∧ z.base = v.sendEpoch ∧ z.sendEpoch = none ∧ z.endDue = false) ∨
            (z.dup = .sending ∧ z.endDue = true ∧ z.sendEpoch = v.sendEpoch ∧ t.room = false))) ∧
        (s.dup.window = .closing → u.ticketsOut = [] → u.endReached x.slot w = false →
          (∀ j z, u.vol j = some z → z.endDue = false) → t.dup.window = .closed)

/-- DUPLICATE_NOW (R154): in an OPEN window a STALLED, MISSED or DONE volume owes a cut again, with its failures
cleared; with no notice room the cut stays due. Any other volume is BUSY, any other window NOT_IN_WINDOW. -/
def Obligations.DuplicateNowOwesACut : Prop :=
  ∀ (s : State) (r : Bytes) (id : Nat) (i : Fin 8) (v : Volume),
    Takes s 17 r → parseNumber2 r = some id → id ≠ 0 → s.findVol id = some (i, v) →
    (s.dup.window ≠ .opened → ∃ t, exec .duplicateNow s = .next t ∧ ChangesOnly [.port] s t ∧
      Answered s t (reply 17 (recordTag r) .notInWindow (.duplicateNow))) ∧
    (s.dup.window = .opened → v.dup ≠ .stalled → v.dup ≠ .missed → v.dup ≠ .done →
      ∃ t, exec .duplicateNow s = .next t ∧ ChangesOnly [.port] s t ∧
        Answered s t (reply 17 (recordTag r) .busy (.duplicateNow))) ∧
    (s.dup.window = .opened → v.dup = .stalled ∨ v.dup = .missed ∨ v.dup = .done →
      ∃ t w, exec .duplicateNow s = .next t ∧ t.vol i = some w ∧ w.dup = .cutPending ∧
        w.failures = 0 ∧ ChangesOnly [.cat, .port] s t ∧
        Answered s t (reply 17 (recordTag r) .ok (.duplicateNow .cutPending)) ∧
        (55 ≤ s.port.completions.length →
          w = { v with dup := .cutPending, failures := 0, cutDue := true }))

/-- CLOCK and MINUTE_ADVANCE (R140) and what the minute of day does to the window (R141 to R143): CLOCK sets
the minute and counts the next advance from now; an advance adds one modulo 1,440, 60,000 ms after the
last. Either hands its minute to the window: in SERVING the start minute opens a CLOSED window, with the
accumulator at 0 and every enabled volume CUT_PENDING with its CUT notice due or placed; a minute outside an
OPEN window takes it out of OPEN. (A CLOCK that sets the minute that stands counts as a change, log 33.) A CLOCK
above 1,439 is BAD_FIELD; an advance that has not come, or a stopped minute timer, changes nothing. -/
def Obligations.MinuteOfDayDrivesTheWindow : Prop :=
  (∀ (s : State) (r : Bytes) (m : Nat), Takes s 18 r → parseNumber2 r = some m →
    (1439 < m → ∃ t, exec .clock s = .next t ∧ ChangesOnly [.port] s t ∧
      Answered s t (reply 18 (recordTag r) .badField (.clock))) ∧
    (m ≤ 1439 → ∃ t, exec .clock s = .next t ∧
      t.time = { s.time with
        minute := some m, nextAdvance := some (s.time.uptime + 60000) } ∧
      WindowFollows s t m ∧ ChangesOnly [.time, .cat, .pool, .dup, .port] s t ∧
      Answered s t (reply 18 (recordTag r) .ok
        (.clock m t.dup.window (some (s.time.uptime + 60000)))))) ∧
  ∀ s : State, s.rst = false →
    (s.time.minute = none ∨ s.passed s.time.nextAdvance = false →
      exec .minuteAdvance s = .next s) ∧
    ∀ m n, s.time.minute = some m → s.time.nextAdvance = some n → n ≤ s.time.uptime →
      ∃ t, exec .minuteAdvance s = .next t ∧
        t.time = { s.time with
          minute := some ((m + 1) % 1440), nextAdvance := some (n + 60000) } ∧
        WindowFollows s t ((m + 1) % 1440) ∧
        ChangesOnly [.time, .cat, .pool, .dup, .port] s t

/-- WINDOW_CLOSED (R143): with no ticket outstanding and no end due a CLOSING window becomes CLOSED, SENDING and
STALLED volumes are CARRIED, CUT_PENDING ones MISSED with the cut no longer owed, each with its event; a
ticket outstanding holds it back. -/
def Obligations.WindowClosesWhenNothingIsOut : Prop :=
  ∀ s : State, s.rst = false → s.dup.window = .closing →
    ((∃ k x, s.ticket k = some x) → ∃ t, exec .windowClosed s = .next t ∧
      ChangesOnly [.port] s t) ∧
    ((∀ k, s.ticket k = none) → (∀ i v, s.vol i = some v → v.endDue = false) →
      ∃ t, exec .windowClosed s = .next t ∧ ChangesOnly [.cat, .dup, .port] s t ∧
        t.dup = { s.dup with window := .closed } ∧ t.cat.snaps = s.cat.snaps ∧
        ∀ i v, s.vol i = some v →
          (v.dup = .sending ∨ v.dup = .stalled → t.vol i = some { v with dup := .carried } ∧
            t.port.events[EventKind.index .windowCarried].flag = true) ∧
          (v.dup = .cutPending →
            t.vol i = some { v with dup := .missed, cutDeadline := none, cutDue := false } ∧
            t.port.events[EventKind.index .cutMissed].flag = true) ∧
          (v.dup ≠ .sending → v.dup ≠ .stalled → v.dup ≠ .cutPending → t.vol i = some v))

/-- CUT_NOTICE (R145): with notice room the lowest volume whose cut notice is due has it placed first, with the
cut deadline counted from now; without room nothing happens. CUT_TIMEOUT (R147): a CUT_PENDING volume
whose deadline has come is MISSED and CUT_MISSED is raised; before it nothing happens. -/
def Obligations.CutIsAskedForAndTimesOut : Prop :=
  ∀ s : State, s.rst = false →
    (s.room = false → exec .cutNotice s = .next s) ∧
    ∀ i v, s.vol i = some v → v.dup = .cutPending →
      (s.room = true → v.cutDue = true →
        (∀ j, j < i → ∀ w, s.vol j = some w → w.dup = .cutPending → w.cutDue = false) →
        let deadline := s.time.uptime + s.cfg.cutTimeout * 1000
        ∃ t, exec .cutNotice s = .next t ∧
          t.vol i = some { v with cutDue := false, cutDeadline := some deadline } ∧
          Places s t (noticeOf 3 (.cutNotice v.id v.openEpoch (v.base.getD 0) v.cutScans
            deadline)) ∧
          ChangesOnly [.cat, .port] s t) ∧
      (s.passed v.cutDeadline = false → exec (.cutTimeout i) s = .next s) ∧
      (s.passed v.cutDeadline = true → ∃ t, exec (.cutTimeout i) s = .next t ∧
        t.vol i = some { v with dup := .missed, cutDeadline := none } ∧
        (∀ j, j ≠ i → t.vol j = s.vol j) ∧ Raised s t .cutMissed v.id ∧
        ChangesOnly [.cat, .port] s t)

/-- ISSUE_PASS (R148, R149, R150): the head's ticket is issued first when there is notice room and the
accumulator holds its cost, which leaves it; its SEND notice carries the next free ticket number, which no
outstanding ticket holds, and the pieces or the region of R133 and R136. Otherwise nothing happens. -/
def Obligations.IssuePassSendsTheHeadsTicket : Prop :=
  ∀ s : State, s.rst = false →
    (s.head = none → exec .issuePass s = .next s) ∧
    ∀ i v, s.head = some (i, v) →
      let cost := s.nextCost v
      let number := nextTicketNumber (s.ticketsOut.map (·.number)) 17 s.dup.ticketCounter
      (s.room = false ∨ s.dup.tokens < cost * 1000 → exec .issuePass s = .next s) ∧
      (s.room = true → cost * 1000 ≤ s.dup.tokens → ∃ t, exec .issuePass s = .next t ∧
        (∀ x ∈ s.ticketsOut, x.number ≠ number) ∧ t.dup.tokens + cost * 1000 ≤ s.dup.tokens ∧
        ChangesOnly [.cat, .pool, .dup, .port] s t ∧
        (∀ l, v.send = .extents l → Places s t (noticeOf 2 (.sendExtents number v.id
          (v.sendEpoch.getD 0) (v.base.getD 0) cost
          ((takePieces (s.profileOf v).maxBlocks l).pieces.map fun e => (e.start, e.length))))) ∧
        ∀ cursor, v.send = .scan cursor → Places s t (noticeOf 2 (.sendScan number v.id
          (v.sendEpoch.getD 0) (v.base.getD 0) cost cursor (min 262144 (v.size - cursor)))))

/-- TOKEN_GAIN (R157): once for each millisecond (log 10) the accumulator gains the share, held at its cap, and
an issue pass may spend it. DEFERRAL_DEADLINE (R160): DEFERRED becomes SUSPENDED while a restore runs, else
ISSUING. -/
def Obligations.TokensGainAndDeferralEnds : Prop :=
  ∀ s : State, s.rst = false →
    (s.time.gainOwed = false → exec .tokenGain s = .next s) ∧
    (s.time.gainOwed = true → ∃ t, exec .tokenGain s = .next t ∧
      t.time = { s.time with gainOwed := false } ∧
      t.dup.tokens ≤ min (s.dup.tokens + s.dup.share) 8192000 ∧
      (s.dup.window ≠ .opened →
        t.dup = { s.dup with tokens := min (s.dup.tokens + s.dup.share) 8192000 } ∧
        t.cat = s.cat ∧ t.poolFree = s.poolFree ∧ t.port = s.port)) ∧
    (s.dup.suspension ≠ .deferred ∨ s.passed s.dup.deferral = false →
      exec .deferralDeadline s = .next s) ∧
    (s.dup.suspension = .deferred → s.passed s.dup.deferral = true →
      exec .deferralDeadline s = .next (s.setDup { s.dup with
        suspension := if 0 < s.dup.running then .suspended else .issuing
        deferral := none }))

/-- DUP_END_STEP (R97, R153): with notice room a volume whose end is due is DONE, its send role becomes its base
role, and DUP_END is placed; without room nothing happens. -/
def Obligations.DuplicationEndMovesTheBase : Prop :=
  ∀ (s : State) (i : Fin 8) (v : Volume), s.rst = false → s.vol i = some v →
    (s.room = false ∨ v.endDue = false → exec (.dupEndStep i) s = .next s) ∧
    (s.room = true → v.endDue = true → ∃ t w, exec (.dupEndStep i) s = .next t ∧
      t.vol i = some w ∧ w.dup = .done ∧ w.base = v.sendEpoch ∧ w.sendEpoch = none ∧
      w.endDue = false ∧ w.send.entries = v.send.entries ∧
      Places s t (noticeOf 6 (.dupEnd v.id (v.sendEpoch.getD 0)
        (match v.send with | .extents _ => false | .scan _ => true) v.failures)) ∧
      ChangesOnly [.cat, .dup, .port] s t)

/-! ### The station link -/

/-- FORGET_STATION and its sweep (R64 to R66): a request that passes makes the station FORGETTING and is not
completed yet; each visit removes the station's contribution of the next record; the end resets the peer
entry and places the completion with the number removed, once a slot is free. (The mark visitOwed is the model's
own: a visit needs it and clears it, the request leaves it, so that the first visit is in the next millisecond,
log 10.) -/
def Obligations.ForgetStationSweepsTheTable : Prop :=
  (∀ (s : State) (r : Bytes) (i : Fin 16), Takes s 19 r → parseNumber1 r = some i.val →
    (i ≠ s.station → s.link.sweep.isSome = true →
      ∃ t, exec .forgetStation s = .next t ∧ ChangesOnly [.port] s t ∧
        Answered s t (reply 19 (recordTag r) .busy (.forgetStation))) ∧
    (i ≠ s.station → s.link.sweep = none → (s.peer i).state = .live →
      ∃ t, exec .forgetStation s = .next t ∧ ChangesOnly [.port] s t ∧
        Answered s t (reply 19 (recordTag r) .peerLive (.forgetStation))) ∧
    (i ≠ s.station → s.link.sweep = none → (s.peer i).state ≠ .live →
      ∃ t, exec .forgetStation s = .next t ∧ ChangesOnly [.link, .port] s t ∧
        t.link = { s.link with
          peers := s.link.peers.set i { s.peer i with state := .forgetting }
          sweep := some { station := i, cursor := none, removed := 0, tag := recordTag r } } ∧
        t.port.requests = s.port.requests.drop 1 ∧
        t.port.completions = s.port.completions)) ∧
  ∀ (s : State) (w : Sweep), s.rst = false → s.link.sweep = some w →
    (∀ o, s.sweepNext w = some o → s.findOwner o.id = some o → s.link.visitOwed = true →
      let found := o.contributions.any (·.station == w.station)
      ∃ t, exec .forgetSweepVisit s = .next t ∧
        t.link = { s.link with
          visitOwed := false
          sweep := some { w with
            cursor := some o.id, removed := w.removed + if found then 1 else 0 } } ∧
        (found = false → t.owners = s.owners) ∧
        (found = true → t.findOwner o.id = some (s.reevaluate { o with
          contributions := o.contributions.filter (·.station != w.station)
          overflow := false })) ∧
        OthersKept o.id s t ∧ ChangesOnly [.link, .owners] s t) ∧
    (s.sweepNext w = none → s.port.completions.length < 64 →
      ∃ t, exec .forgetSweepEnd s = .next t ∧
        t.link = { s.link with
          peers := s.link.peers.set w.station Peer.reset, sweep := none, visitOwed := false } ∧
        Places s t (reply 19 w.tag .ok (.forgetStation w.station.val w.removed)) ∧
        ChangesOnly [.link, .port] s t) ∧
    (64 ≤ s.port.completions.length → exec .forgetSweepEnd s = .next s)

/-- ANNOUNCE_TIMER_EXPIRY (R48, R49, R53, R156): the next expiry is one interval later and the share is
recomputed; the second expiry in LISTENING makes the link ACTIVE with an ANNOUNCE in the transmitter; in OFF
and MUTE nothing is sent. PEER_STALE_DEADLINE (R63): a LIVE peer not heard within the limit is STALE. -/
def Obligations.AnnounceTimerAndStaleDeadline : Prop :=
  ∀ s : State, s.rst = false →
    (s.link.announceNext = none → exec .announceTimerExpiry s = .next s) ∧
    (∀ d, s.link.announceNext = some d →
      (s.time.uptime < d → exec .announceTimerExpiry s = .next s) ∧
      (d ≤ s.time.uptime → ∃ t, exec .announceTimerExpiry s = .next t ∧
        ChangesOnly [.link, .cat, .pool, .dup, .port] s t ∧
        t.link.announceNext = some (d + s.cfg.announceInterval * 1000) ∧
        t.dup.share = shareOf s.cfg s.ownBacklog s.peerBacklog ∧
        t.link.peers = s.link.peers ∧
        (s.link.state = .listening → s.link.expiries = 0 →
          t.link = { s.link with
            announceNext := some (d + s.cfg.announceInterval * 1000), expiries := 1 }) ∧
        (s.link.state = .listening → 1 ≤ s.link.expiries → s.link.announceSlot = .empty →
          s.link.usageSlot = .empty → t.link.state = .active ∧ t.link.announceSlot = .held ∧
          t.link.attempts = 0) ∧
        (s.link.state = .off ∨ s.link.state = .mute → t.link = { s.link with
          announceNext := some (d + s.cfg.announceInterval * 1000) }))) ∧
    ∀ i : Fin 16,
      ((s.peer i).state ≠ .live → exec (.peerStaleDeadline i) s = .next s) ∧
      ∀ h, (s.peer i).state = .live → (s.peer i).heard = some h →
        let limit := s.cfg.staleMultiple * (s.cfg.announceInterval * 1000)
        (s.time.uptime < h + limit → exec (.peerStaleDeadline i) s = .next s) ∧
        (h + limit ≤ s.time.uptime →
          exec (.peerStaleDeadline i) s = .next (s.setLink { s.link with
            peers := s.link.peers.set i { s.peer i with state := .stale } }))

/-- The transmitter (R21, R50 to R55): an attempt counts and drives the held frame; a success empties the slot
of an ANNOUNCE or records the send of each owner of a USAGE frame; a collision ends the attempt with a
back-off below 2 to the smaller of the attempt count and 6 (the draw is a free value, log 9), and the tenth
drops the frame with LINK_GIVEUP. -/
def Obligations.TransmitAttemptsSucceedOrCollide : Prop :=
  ∀ s : State, s.rst = false →
    (∀ f, s.heldFrame = some f → s.link.backoff = none → s.link.onPair = none →
      exec .transmitAttemptStart s = .next (s.setLink { s.link with
        attempts := s.link.attempts + 1, onPair := some f, replaced := false })) ∧
    (exec .backoffExpiry s = .next (s.setLink { s.link with backoff := none })) ∧
    ∀ f, s.link.onPair = some f →
      (s.link.announceSlot = .held → s.link.replaced = false → s.link.usageSlot = .empty →
        exec .attemptSuccess s = .next (s.setLink { s.link with
          announceSlot := .empty, attempts := 0, onPair := none, replaced := false })) ∧
      (s.link.announceSlot = .empty → (s.link.usageEntries.map (·.1)).Nodup →
        ∃ t, exec .attemptSuccess s = .next t ∧ t.link.onPair = none ∧
          ChangesOnly [.link, .owners] s t ∧
          (∀ e ∈ s.link.usageEntries, t.findOwner e.1 = (s.findOwner e.1).map fun o =>
            { o with lastReported := e.2, reportTime := some s.time.uptime }) ∧
          ∀ id, id ∉ s.link.usageEntries.map (·.1) → t.findOwner id = s.findOwner id) ∧
      (s.link.attempts < 10 → ∃ b, b < 2 ^ min s.link.attempts 6 ∧
        exec .collision s = .next (s.setLink { s.link with
          onPair := none, replaced := false, backoff := some b
          rng := { s.link.rng with drawn := s.link.rng.drawn + 1 } })) ∧
      (10 ≤ s.link.attempts → s.link.announceSlot = .held → s.link.usageSlot = .empty →
        ∃ t, exec .collision s = .next t ∧ Raised s t .linkGiveup s.station.val ∧
          t.link = { s.link with
            announceSlot := .empty, attempts := 0, onPair := none, replaced := false } ∧
          ChangesOnly [.link, .port] s t)

/-- Frames of a peer (R56 to R58, R61, R179). The bytes of an ANNOUNCE give the peer entry its fields and make
it LIVE and announced (an owner count above 4,096 is stored as received, log 15); those of a USAGE frame give it
the generation and hand every entry on, in frame order, with EVENT_PENDING behind the last (log 4). From a
FORGETTING station neither changes anything. One entry (R8 to R10): without a record it changes nothing; 0 blocks
remove the station's contribution and clear the overflow flag; other blocks replace it or join the list in
station order; in a full list of six they displace its smallest contribution if they are larger, and the
overflow flag and VIEW_OVERFLOW tell of it. -/
def Obligations.PeerFramesUpdateTheirEntry : Prop :=
  (∀ (s : State) (i : Fin 16) (generation blocks : Nat) (id : OwnerId), OwnersOrdered s →
    let t := s.usageEntry i generation (id, blocks)
    ((s.peer i).state = .forgetting ∨ s.findOwner id = none → t = s) ∧
    ∀ o, (s.peer i).state ≠ .forgetting → s.findOwner id = some o →
      let report : Contribution := { station := i, blocks, generation }
      let joined := fun l : List Contribution =>
        l.filter (·.station < i) ++ report :: l.filter (i < ·.station)
      ChangesOnly [.owners, .port] s t ∧ OthersKept id s t ∧
      (blocks = 0 → t.port = s.port ∧ t.findOwner id = some (s.reevaluate { o with
        contributions := o.contributions.filter (·.station != i), overflow := false })) ∧
      (blocks ≠ 0 → o.contributions.any (·.station == i) = true →
        t.port = s.port ∧ t.findOwner id = some (s.reevaluate { o with
          contributions := o.contributions.map fun c =>
            if c.station = i then report else c })) ∧
      (blocks ≠ 0 → o.contributions.any (·.station == i) = false →
        (o.contributions.length < 6 → t.port = s.port ∧
          t.findOwner id = some (s.reevaluate { o with
            contributions := joined o.contributions })) ∧
        ∀ m ∈ o.contributions, o.contributions.length = 6 →
          (∀ c ∈ o.contributions, m.blocks < c.blocks ∨
            (m.blocks = c.blocks ∧ m.station ≤ c.station)) →
          Raised s t .viewOverflow id.toNat ∧
          t.findOwner id = some (s.reevaluate { o with
            overflow := true
            contributions := if m.blocks < blocks then
              joined (o.contributions.filter (·.station != m.station))
              else o.contributions }))) ∧
  ∀ (s : State) (i : Fin 16) (generation : Nat), s.rst = false → s.link.state ≠ .off →
    i ≠ s.station → generation < 65536 →
    (∀ (part : PeerPart) (window : Bool) (backlog share ownerCount : Nat),
      (part = .loading ∧ generation = 0 ∨ part = .serving ∧ generation ≠ 0) →
      backlog < 4294967296 → share < 4294967296 → ownerCount < 65536 →
      let burst := announceBytes i.val generation part window backlog share ownerCount
      ((s.peer i).state = .forgetting → exec (.frameReceived burst) s = .next s) ∧
      ((s.peer i).state ≠ .forgetting →
        exec (.frameReceived burst) s = .next (s.putPeer i
          { state := .live, generation, part, window, backlog, share, ownerCount,
            heard := some s.time.uptime, announced := true }))) ∧
    ∀ entries : List (OwnerId × Nat), generation ≠ 0 → 1 ≤ entries.length →
      entries.length ≤ 24 → (∀ e ∈ entries, e.2 < 4294967296) →
      let burst := usageBytes i.val generation entries
      ((s.peer i).state = .forgetting → exec (.frameReceived burst) s = .next s) ∧
      ((s.peer i).state ≠ .forgetting →
        exec (.frameReceived burst) s = .next ((entries.foldl
          (fun u e => u.usageEntry i generation e)
          (s.putPeer i { s.peer i with
            state := .live, generation := generation, heard := some s.time.uptime,
            announced := if (s.peer i).state = .live then (s.peer i).announced else false
            })).flushEvent))

/-- Frames that are no news of a peer (R55, R58, R59). A fragment and anything heard while OFF is passed over; a
burst of wrong length or CRC raises LINK_ERROR with the own station number; a valid frame of the own
station number raises STATION_CONFLICT and makes a LISTENING or ACTIVE link MUTE with both slots EMPTY. -/
def Obligations.BadFramesAndStationConflict : Prop :=
  ∀ s : State, s.rst = false →
    (∀ burst : Bytes, (s.link.state = .off ∨ burst.length < 5) →
      exec (.frameReceived burst) s = .next s) ∧
    (∀ burst : Bytes, s.link.state ≠ .off → 5 ≤ burst.length →
      ((frameOf burst).lengthOk burst.length = false ∨
        crc16 (burst.take (burst.length - 2)) ≠ fieldAt burst (burst.length - 2) 2) →
      ∃ t, exec (.frameReceived burst) s = .next t ∧ ChangesOnly [.port] s t ∧
        Raised s t .linkError s.station.val) ∧
    ∀ (window : Bool) (generation backlog share ownerCount : Nat),
      (s.link.state = .listening ∨ s.link.state = .active) → 1 ≤ generation →
      generation < 65536 → backlog < 4294967296 → share < 4294967296 → ownerCount < 65536 →
      ∃ t, exec (.frameReceived (announceBytes s.station.val generation .serving window backlog
          share ownerCount)) s = .next t ∧
        Raised s t .stationConflict s.station.val ∧ t.link.state = .mute ∧
        t.link.announceSlot = .empty ∧ t.link.usageSlot = .empty ∧ t.link.onPair = none ∧
        t.link.backoff = none ∧ t.link.peers = s.link.peers ∧ ChangesOnly [.link, .port] s t

/-- The frames that the part sends. An announce-timer expiry in ACTIVE fills the ANNOUNCE slot (R53) and, in
SERVING with the USAGE slot EMPTY, composes a USAGE frame of the report-due owners and behind them the overdue
ones, at most 24 (R19, R20, R54); a free transmitter takes the ANNOUNCE first (R55). The success of a USAGE
frame, a change of local used that leaves its owner report-due (here a RELEASE) and LOAD_DONE compose one too.
An attempt drives the ANNOUNCE of R56, read as it starts, or the USAGE frame as composed, in the layouts of
R179. (A slot is taken inside the step that fills it or frees the transmitter, log 24; owners that a full frame left
out are not remembered, log 36.)
The figures of the night. The backlog of a volume is its send list, or the region costs from the cursor on,
and its outstanding tickets (R155); B sums those of the SENDING volumes in an OPEN window, and P those of the
LIVE peers with the window flag set (R155, R156). The share is formed of B and P (R156), the estimate of backlog
and share (R158), and the serving order goes by ascending estimate, then by slot, the unknown ones last (R159).
The announce-timer expiry in an OPEN window adds the estimates in that order to the uptime and marks every
volume whose sum passes the window end time, with AT_RISK (R159; a sum equal to it does not pass, log 35). -/
def Obligations.OwnFramesAndTheNightsFigures : Prop :=
  ((∀ (s : State) (d : Nat), s.rst = false → s.link.announceNext = some d → d ≤ s.time.uptime →
    s.link.state = .active →
    let chosen := usageChoice s
    let composes : Bool :=
      s.link.usageSlot == .empty && s.part == .serving && !chosen.isEmpty
    ∃ t, exec .announceTimerExpiry s = .next t ∧ t.link.peers = s.link.peers ∧
      t.owners = s.owners ∧
      t.link.announceSlot = (if s.link.usageSlot = .held ∧ s.link.announceSlot ≠ .held then
        .waiting else .held) ∧
      t.link.usageSlot = (if composes then .waiting else s.link.usageSlot) ∧
      t.link.usageEntries = (if composes then chosen else s.link.usageEntries) ∧
      (s.link.announceSlot = .held → t.link.attempts = s.link.attempts ∧
        t.link.backoff = s.link.backoff ∧ t.link.onPair = s.link.onPair ∧
        t.link.replaced = (s.link.replaced || s.link.onPair.isSome)) ∧
      (s.link.announceSlot ≠ .held → s.link.usageSlot ≠ .held → t.link.attempts = 0 ∧
        t.link.backoff = none ∧ t.link.onPair = none)) ∧
  (∀ (s : State) (f : Bytes), s.rst = false → s.link.onPair = some f →
    s.link.announceSlot ≠ .held → s.link.state = .active → s.part = .serving →
    ∃ t, exec .attemptSuccess s = .next t ∧
      t.link.announceSlot = (if s.link.announceSlot = .waiting then .held else .empty) ∧
      t.link.usageEntries = usageChoice t ∧
      t.link.usageSlot = (if usageChoice t = [] then .empty
        else if s.link.announceSlot = .waiting then .waiting else .held)) ∧
  (∀ (s : State) (r : Bytes) (q : ReleaseReq) (i : Fin 8) (v : Volume) (o : Owner),
    Takes s 5 r → parseRelease r = some q → invalidOwner q.owner = false → q.volume ≠ 0 →
    q.blocks ≤ 16777215 → s.findVol q.volume = some (i, v) → q.birth ≤ v.openEpoch →
    q.start + q.length ≤ v.size → s.findOwner q.owner = some o → s.link.state = .active →
    s.link.announceSlot = .empty → s.link.usageSlot = .empty →
    let p := { o with used := o.used - q.blocks }
    ∃ t, exec .release s = .next t ∧
      (p.used ≠ o.used → isReportDue s p = true → t.link.usageSlot = .held ∧
        t.link.usageEntries = usageChoice t ∧ t.link.attempts = 0) ∧
      (p.used = o.used ∨ isReportDue s p = false → t.link = s.link)) ∧
  (∀ (s : State) (r : Bytes) (g : Nat), Takes s 27 r → parseNumber2 r = some g → g ≠ 0 →
    ∃ t, exec .loadDone s = .next t ∧
      (s.link.state ≠ .active → t.link.announceSlot = s.link.announceSlot ∧
        t.link.usageSlot = s.link.usageSlot) ∧
      (s.link.state = .active → s.link.announceSlot = .empty → s.link.usageSlot = .empty →
        t.link.announceSlot = .held ∧ t.link.attempts = 0 ∧
        t.link.usageSlot = (if usageChoice t = [] then .empty else .waiting) ∧
        (usageChoice t ≠ [] → t.link.usageEntries = usageChoice t))) ∧
  (∀ s : State, s.rst = false → s.link.backoff = none → s.link.onPair = none →
    (s.link.announceSlot = .held → ∃ t, exec .transmitAttemptStart s = .next t ∧
      t.link.onPair = some (if s.part = .serving then
          announceBytes s.station.val s.link.generation .serving
            (decide (s.dup.window = .opened)) s.ownBacklog s.dup.share s.owners.length
        else announceBytes s.station.val 0 .loading false 0 0 s.owners.length)) ∧
    (s.link.announceSlot ≠ .held → s.link.usageSlot = .held →
      ∃ t, exec .transmitAttemptStart s = .next t ∧ t.link.onPair =
        some (usageBytes s.station.val s.link.generation s.link.usageEntries))) ∧
  (∀ (station generation : Nat) (part : PeerPart) (window : Bool) (backlog share count : Nat),
    let b := announceBytes station generation part window backlog share count
    b.length = 18 ∧ fieldAt b 0 1 = 1 ∧ fieldAt b 1 1 = station % 256 ∧
    fieldAt b 2 2 = generation % 65536 ∧
    fieldAt b 4 1 = (match part with | .loading => 1 | .serving => 2) ∧
    fieldAt b 5 1 = window.toNat ∧ fieldAt b 6 4 = backlog % 4294967296 ∧
    fieldAt b 10 4 = share % 4294967296 ∧ fieldAt b 14 2 = count % 65536 ∧
    fieldAt b 16 2 = crc16 (b.take 16)) ∧
  ∀ (station generation : Nat) (entries : List (OwnerId × Nat)),
    let b := usageBytes station generation entries
    let n := entries.length
    b.length = 7 + 8 * n ∧ fieldAt b 0 1 = 2 ∧ fieldAt b 1 1 = station % 256 ∧
    fieldAt b 2 2 = generation % 65536 ∧ fieldAt b 4 1 = n % 256 ∧
    (∀ k id used, entries[k]? = some (id, used) → fieldAt b (5 + 8 * k) 4 = id.toNat ∧
      fieldAt b (9 + 8 * k) 4 = used % 4294967296) ∧
    fieldAt b (5 + 8 * n) 2 = crc16 (b.take (5 + 8 * n))) ∧
  (∀ (s : State) (i : Fin 8) (v : Volume),
    let ratio := s.cfg.scanRatio
    let cost := fun length => (length * ratio + 999) / 1000
    let listed := match v.send with
      | .extents l => (l.map (·.length)).sum
      | .scan cursor => ((List.range ((v.size - cursor + 262143) / 262144)).map fun n =>
          cost (min 262144 (v.size - cursor - n * 262144))).sum
    let out := (s.ticketsOut.filter (·.slot == i)).map fun x => match x.work with
      | .extents pieces => (pieces.map (·.length)).sum
      | .scan _ length => cost length
    s.backlogOf i v = min (listed + out.sum) 4294967295 ∧
    let share := s.dup.share
    let profile := s.profileOf v
    let backlog := s.backlogOf i v
    let tickets := (backlog + profile.maxBlocks - 1) / profile.maxBlocks
    let transfer := (backlog * 1000 + share - 1) / share
    let perTicket := (profile.maxBlocks * 1000 + share - 1) / share
    (share = 0 → s.estimate i v = none) ∧
    (share ≠ 0 → backlog = 0 → s.estimate i v = some 0) ∧
    (share ≠ 0 → backlog ≠ 0 → profile.maxBlocks ≠ 0 → s.estimate i v = some (transfer +
      if profile.depth = 1 then tickets * profile.overhead
      else profile.overhead + (tickets - 1) * (profile.overhead - perTicket)))) ∧
  (∀ s : State,
    s.ownBacklog = (if s.dup.window = .opened then
      min ((List.finRange 8).map fun i => match s.vol i with
        | some v => if v.dup = .sending then s.backlogOf i v else 0
        | none => 0).sum 4294967295 else 0) ∧
    s.peerBacklog = (((List.finRange 16).filter fun i =>
      (s.peer i).state == .live && (s.peer i).window).map fun i => (s.peer i).backlog).sum) ∧
  (∀ (g : Image) (b p : Nat), shareOf g b p = if b = 0 then 0
    else min (max (g.uplink * b / (b + p)) (g.uplink * g.minShare / 1000))
      (min g.uplink g.stationCap)) ∧
  (∀ s : State,
    (∀ i e, (i, e) ∈ s.servingOrder ↔ ∃ v, s.vol i = some v ∧ v.dup = .sending ∧
      e = s.estimate i v) ∧
    s.servingOrder.Pairwise fun x y => match x.2, y.2 with
      | some a, some b => a < b ∨ (a = b ∧ x.1 < y.1)
      | some _, none => True
      | none, some _ => False
      | none, none => x.1 < y.1) ∧
  ∀ (s : State) (d m a : Nat), s.rst = false → s.link.announceNext = some d →
    d ≤ s.time.uptime → s.dup.window = .opened → s.time.minute = some m → m ≤ 1439 →
    s.time.nextAdvance = some a →
    let u := s.setDup { s.dup with share := shareOf s.cfg s.ownBacklog s.peerBacklog }
    let stop := a + 60000 * ((s.cfg.windowEnd + 1439 - m) % 1440)
    let late := fun i : Fin 8 => (List.range 8).any fun n =>
      (u.servingOrder[n]?.any fun x => x.1 == i && x.2.isSome) &&
        decide (stop < s.time.uptime + ((u.servingOrder.take (n + 1)).filterMap (·.2)).sum)
    ∃ t, exec .announceTimerExpiry s = .next t ∧ t.dup.share = u.dup.share ∧
      (∀ i v, s.vol i = some v → ∃ w, t.vol i = some w ∧ w.atRisk = (v.atRisk || late i)) ∧
      ((∃ i v, s.vol i = some v ∧ v.atRisk = false ∧ late i = true) →
        t.port.events[EventKind.index .atRisk].flag = true) ∧
      ((∀ i v, s.vol i = some v → v.atRisk = true ∨ late i = false) →
        t.port.events[EventKind.index .atRisk] = s.port.events[EventKind.index .atRisk])

/-! ### INSPECT, AMEND, EVENTS, RESTART and the reload -/

/-- INSPECT (R25, R170): a table outside 1 to 9, a part number above 7, a key out of range or a part that the
contents do not have is BAD_FIELD and a key of no record NO_SUCH with the summary of its table, and both change
nothing; otherwise the part asked for is returned, and nothing changes but the re-evaluation of an owner record
before it is read. What the tables hold follows: OWNER by the layout of R179, RESERVATION (R46), PEER (R60,
R67), VOLUME (R69, R90, R103, R139, R144, R161), SNAPSHOT (R71, R90, R103), RESTORE (R104, R122), CLASS and
WINDOW (R171), PROFILE (R161) and the start-up summary (R182), each as pairs of width and value. (Their order
and form, and the whole summary in part 0 of 1 of a NO_SUCH, are log 21; the key ranges are log 27.) -/
def Obligations.InspectReturnsOnePart : Prop :=
  (∀ (s : State) (r : Bytes) (q : InspectReq), Takes s 20 r → parseInspect r = some q →
    let u := if q.table = 1 ∧ q.key ≤ 4294967295 then
        s.touchOwner (BitVec.ofNat 32 q.key) fun o => o
      else s
    (q.table < 1 ∨ 9 < q.table ∨ 7 < q.part ∨ u.find q.table q.key = .badKey →
      ∃ t, exec .inspect s = .next t ∧ ChangesOnly [.port] s t ∧
        Answered s t (reply 20 (recordTag r) .badField (.inspect))) ∧
    (1 ≤ q.table → q.table ≤ 9 → q.part ≤ 7 →
      (∀ summary, u.find q.table q.key = .missing summary →
        ∃ t, exec .inspect s = .next t ∧ ChangesOnly [.port] s t ∧
          Answered s t (reply 20 (recordTag r) .noSuch (.inspect (fieldBytes summary)))) ∧
      ∀ fields, u.find q.table q.key = .contents fields →
        let bytes := fieldBytes fields
        let parts := max 1 ((bytes.length + 119) / 120)
        (parts ≤ q.part → ∃ t, exec .inspect s = .next t ∧ ChangesOnly [.port] s t ∧
          Answered s t (reply 20 (recordTag r) .badField (.inspect))) ∧
        (q.part < parts → ∃ t, exec .inspect s = .next t ∧ t.owners = u.owners ∧
          ChangesOnly [.owners, .port] s t ∧
          Answered s t { reply 20 (recordTag r) .ok
              (.inspect ((bytes.drop (q.part * 120)).take 120)) with
            part := q.part, parts := parts }))) ∧
  (∀ (s : State) (key : Nat),
    (4294967295 < key ∨ invalidOwner (BitVec.ofNat 32 key) = true → s.find 1 key = .badKey) ∧
    (512 ≤ key → s.find 2 key = .badKey) ∧ (16 ≤ key → s.find 3 key = .badKey) ∧
    (8 ≤ key → s.find 4 key = .badKey) ∧ (key / 4294967296 = 0 → s.find 5 key = .badKey) ∧
    (4 ≤ key → s.find 6 key = .badKey) ∧ (8 ≤ key → s.find 7 key = .badKey) ∧
    (8 ≤ key → s.find 8 key = .badKey) ∧ (4 ≤ key → s.find 9 key = .badKey)) ∧
  (∀ (s : State) (id : OwnerId), invalidOwner id = false →
    (s.findOwner id = none → s.find 1 id.toNat = .missing []) ∧
    ∀ o, s.findOwner id = some o → o.contributions.length ≤ 6 →
      ∃ fields, s.find 1 id.toNat = .contents fields ∧
        let at' := fun offset width => fieldAt (fieldBytes fields) (offset - 8) width
        let base := s.baseLimits o
        let limits := s.effectiveLimits o
        let stale := o.contributions.any s.stale
        (fieldBytes fields).length = 110 ∧
        (∀ row ∈ [(8, 1, 1), (9, 1, o.cls.val), (10, 1, (s.quotaState o).code),
            (11, 1, o.overflow.toNat + o.override.isSome.toNat * 2 + o.grace.isSome.toNat * 4 +
              o.warmUp.isSome.toNat * 8 + o.reportTime.isSome.toNat * 16 +
              (isReportDue s o).toNat * 32 + (isOverdue s o).toNat * 64),
            (12, 1, (s.incomplete o).toNat + (s.warming o).toNat * 2 + o.overflow.toNat * 4 +
              stale.toNat * 8),
            (13, 1, o.contributions.length),
            (14, 1, ((List.range o.contributions.length).map fun n =>
              ((o.contributions[n]?).any s.stale).toNat * 2 ^ n).sum),
            (15, 1, 0), (16, 4, o.id.toNat), (20, 4, o.used), (24, 4, o.reserved),
            (28, 4, o.view), (32, 4, base.soft), (36, 4, base.hard), (40, 4, limits.soft),
            (44, 4, limits.hard), (48, 6, o.grace.getD 0), (54, 6, o.warmUp.getD 0),
            (60, 6, o.reportTime.getD 0), (66, 6, o.lastCharge), (72, 4, o.lastReported)],
          at' row.1 row.2.1 = row.2.2 % 256 ^ row.2.1) ∧
        ∀ n, n < 6 → match o.contributions[n]? with
          | some c => at' (76 + 7 * n) 1 = c.station.val ∧
              at' (77 + 7 * n) 4 = c.blocks % 4294967296 ∧
              at' (81 + 7 * n) 2 = c.generation % 65536
          | none => at' (76 + 7 * n) 7 = 0) ∧
  (∀ (s : State) (key : Nat), key < 512 →
    (s.entryInSlot key = none → s.find 2 key = .missing [(2, s.adm.handleCounter)]) ∧
    ∀ e, s.entryInSlot key = some e → s.find 2 key = .contents
      [(2, e.handle), (4, e.owner.toNat), (4, e.blocks), (2, e.volume), (6, e.lease.getD 0),
        (1, match e.origin with | .write => 0 | .restore _ => 1),
        (1, match e.origin with | .write => 0 | .restore c => c.val), (6, e.grantTime),
        (2, s.adm.handleCounter)]) ∧
  (∀ (s : State) (i : Fin 16),
    let p := s.peer i
    s.find 3 i.val = .contents
      [(1, p.state.code), (2, p.generation), (1, p.part.code), (1, p.window.toNat),
        (4, p.backlog), (4, p.share), (2, p.ownerCount), (6, p.heard.getD 0),
        (1, p.announced.toNat),
        (6, if p.state = .live then ((p.heard.map fun h =>
          h + s.cfg.staleMultiple * (s.cfg.announceInterval * 1000)).getD 0) else 0),
        (1, s.station.val), (2, s.link.generation), (1, s.link.state.code), (1, s.link.expiries),
        (1, s.link.announceSlot.code), (1, s.link.usageSlot.code), (1, s.link.attempts),
        (1, s.link.sweep.isSome.toNat), (1, (s.link.sweep.map (·.station.val)).getD 0),
        (4, ((s.link.sweep.bind (·.cursor)).map (·.toNat)).getD 0)]) ∧
  (∀ (s : State) (i : Fin 8),
    let d := s.dup
    let scheduler := [(1, d.window.code), (2, s.cfg.windowStart), (2, s.cfg.windowEnd),
      (1, s.time.minute.isSome.toNat), (2, s.time.minute.getD 0),
      (6, s.time.nextAdvance.getD 0), (4, s.ownBacklog), (4, min s.peerBacklog 4294967295),
      (4, d.share), (4, d.tokens), (1, d.suspension.code), (6, d.lastResume.getD 0),
      (6, d.deferral.getD 0), (1, d.running), (2, d.ticketCounter), (1, s.ticketsOut.length)]
    (s.vol i = none → s.find 4 i.val = .missing scheduler) ∧
    ∀ v, s.vol i = some v →
      let own := s.ticketsOut.filter (·.slot == i)
      let pieces := own.flatMap fun x => match x.work with
        | .extents l => l
        | .scan _ _ => []
      let estimate := if v.dup = .sending then s.estimate i v else none
      let order := s.servingOrder.map (·.1)
      s.find 4 i.val = .contents (
        [(2, v.id), (4, v.size), (4, v.openEpoch), (4, v.limit), (1, v.autoExpire.toNat),
          (1, v.dupEnable.toNat), (1, v.profile.val), (4, v.retained), (4, v.base.getD 0),
          (1, v.overReported.toNat), (1, v.expiryWaiting.toNat), (1, v.overLimit.toNat),
          (2, (s.snapsOf i).length), (4, (s.oldest i).getD 0), (4, (s.newest i).getD 0),
          (4, (s.candidate i).getD 0), (2, s.cat.snaps.length), (1, s.cat.lock.code),
          (1, s.cat.lockCause.code), (1, s.cat.lockClosedSince.toNat), (1, v.fullScan.toNat),
          (2, v.current.length), (4, (v.current.map (·.length)).sum)] ++
        (match v.send with
          | .extents l => [(1, 0), (2, l.length), (4, (l.map (·.length)).sum), (4, 0), (2, 0),
              (1, 0)]
          | .scan cursor => [(1, 1), (2, 0), (4, 0), (4, cursor), (2, (v.size + 262143) / 262144),
              (1, (s.scanComplete i v).toNat)]) ++
        [(1, pieces.length), (4, (pieces.map (·.length)).sum), (2, s.poolFree), (1, v.dup.code),
          (4, v.sendEpoch.getD 0), (1, v.failures), (6, v.cutDeadline.getD 0),
          (1, v.cutDue.toNat), (1, v.endDue.toNat), (1, v.atRisk.toNat), (1, v.outstanding),
          (4, s.backlogOf i v), (1, estimate.isSome.toNat), (6, estimate.getD 0),
          (1, if i ∈ order then order.idxOf i + 1 else 0), (1, own.length)] ++
        own.map (fun x => (2, x.number)) ++ scheduler)) ∧
  (∀ (s : State) (id epoch : Nat), 1 ≤ id → epoch < 4294967296 →
    (s.findVol id = none → s.find 5 (id * 4294967296 + epoch) = .missing []) ∧
    ∀ i v, s.findVol id = some (i, v) →
      (s.findSnap i epoch = none → s.find 5 (id * 4294967296 + epoch) = .missing []) ∧
      ∀ x, s.findSnap i epoch = some x → s.find 5 (id * 4294967296 + epoch) = .contents (
        [(1, i.val), (4, epoch), (1, x.kind.code), (4, x.tag), (6, x.created),
          (1, x.hold.toNat), (1, x.pin.toNat), (1, x.refs), (1, x.buckets.length)] ++
        x.buckets.flatMap (fun b => [(4, b.birth), (4, b.blocks)]) ++
        [(4, (x.buckets.map (·.blocks)).sum), (1, x.deletable.toNat), (1, x.eligible.toNat),
          (4, (s.nextOlder i epoch).getD 0), (1, (s.restoresOf i epoch).length)] ++
        (s.restoresOf i epoch).map (fun c => (1, c.val)) ++
        [(1, (decide (v.sendEpoch = some epoch)).toNat),
          (1, (decide (v.base = some epoch)).toNat)])) ∧
  (∀ (s : State) (c : Fin 4),
    let controller := [(2, s.rsc.jobCounter), (1, s.rsc.lastServed.val), (1, s.cfg.copyDepth),
      (1, ((List.finRange 4).filter fun d => isRunning (s.context d)).length)]
    (s.context c = none → s.find 6 c.val = .missing controller) ∧
    ∀ x, s.context c = some x → s.find 6 c.val = .contents (
      [(1, match x.state with | .assembling => 1 | .running => 2 | .draining => 3), (2, x.job),
        (4, x.owner.toNat), (1, x.tracked.toNat), (2, s.volumeId x.sourceSlot),
        (4, x.sourceEpoch), (2, s.volumeId x.targetSlot), (1, x.k), (1, x.items.length)] ++
      x.items.flatMap (fun m => [(4, m.source), (2, m.length), (4, m.birth), (4, m.target),
        (1, m.state.code)]) ++
      [(6, x.deadline.getD 0), (2, x.handle.getD 0), (1, x.outstanding),
        (1, x.failureSeen.toNat), (1, x.endDue.toNat), (1, x.timeoutDue.toNat), (4, x.charged),
        (4, ((x.handle.bind s.entryByHandle).map (·.blocks)).getD 0)] ++ controller)) ∧
  ∀ s : State,
    let g := s.cfg
    let startUp := [(1, s.part.code),
      (1, match s.checkFailure with | some (.range _) => 1 | _ => 0),
      (1, match s.checkFailure with | some (.range n) => n | _ => 0),
      (1, s.station.val), (1, s.maint.toNat)]
    (s.image = none → ∀ key, (key < 8 → s.find 7 key = .missing startUp) ∧
      (key < 8 → s.find 8 key = .missing startUp) ∧
      (key < 4 → s.find 9 key = .missing startUp)) ∧
    (s.image.isSome = true →
      (∀ i : Fin 8, s.find 7 i.val = .contents
        [(4, g.classes[i].soft), (4, g.classes[i].hard), (2, g.classes[i].grace),
          (4, g.classes[i].margin), (4, g.classes[i].threshold), (2, g.classes[i].lease),
          (2, (s.owners.filter (·.cls == i)).length), (4, g.uplink), (2, g.minShare),
          (4, g.stationCap), (1, g.announceInterval), (1, g.staleMultiple), (2, g.sweepPeriod),
          (1, g.assemblyTimeout), (2, g.cutTimeout), (1, g.copyDepth), (2, g.minProgress),
          (2, g.windowStart), (2, g.windowEnd), (2, g.scanRatio), (1, g.lockAtStart.code),
          (1, s.station.val), (1, s.maint.toNat)]) ∧
      (∀ i : Fin 8, s.find 8 i.val = .contents [(4, g.windows[i].base.toNat),
        (4, g.windows[i].mask.toNat), (1, g.windows[i].cls.val),
        (1, g.windows[i].enable.toNat)]) ∧
      ∀ i : Fin 4, s.find 9 i.val = .contents [(2, g.profiles[i].maxBlocks),
        (1, g.profiles[i].depth), (2, g.profiles[i].overhead), (1, g.profiles[i].retryLimit)])

/-- AMEND with the action SET (R18, R85, R172, R173): the soft override of an owner takes the masked value, and
an absent override gets the class's hard limit beside it; a reserve limit takes the masked value. A
condition that does not hold is answered MISMATCH and nothing changes. (The over-limit value of the completion is
formed before the evaluation that the change starts, log 23.) -/
def Obligations.AmendWritesUnderItsMask : Prop :=
  ∀ (s : State) (r : Bytes) (q : AmendReq), Takes s 21 r → parseAmend r = some q →
    q.condition ≤ 4 → q.action = 0 →
    (∀ o, q.table = 1 → q.field = 0 → q.key ≤ 4294967295 →
      invalidOwner (BitVec.ofNat 32 q.key) = false →
      s.findOwner (BitVec.ofNat 32 q.key) = some o →
      let old := (o.override.map (·.soft)).getD 4294967295
      let new := ((BitVec.ofNat 32 old &&& ~~~ q.writeMask) ||| (q.value &&& q.writeMask)).toNat
      let limits : Limits :=
        { soft := new, hard := (o.override.map (·.hard)).getD (s.classRec o.cls).hard }
      let p := if some limits = o.override then o
        else s.reevaluate { o with override := some limits }
      (q.conditionHolds (BitVec.ofNat 32 old) = false →
        ∃ t, exec .amend s = .next t ∧ ChangesOnly [.port] s t ∧
          Answered s t (reply 21 (recordTag r) .mismatch (.amend))) ∧
      (q.conditionHolds (BitVec.ofNat 32 old) = true →
        ∃ t, exec .amend s = .next t ∧ t.findOwner (BitVec.ofNat 32 q.key) = some p ∧
          OthersKept (BitVec.ofNat 32 q.key) s t ∧ ChangesOnly [.owners, .port] s t ∧
          Answered s t (reply 21 (recordTag r) .ok (.amend old new
            (decide (some limits ≠ o.override)) (s.quotaState p) false)))) ∧
    ∀ (i : Fin 8) v, q.table = 4 → q.field = 2 → q.key = i.val → s.vol i = some v →
      let old := BitVec.ofNat 32 v.limit
      let new := ((old &&& ~~~ q.writeMask) ||| (q.value &&& q.writeMask)).toNat
      let above : Bool := decide (new ≠ 4294967295 ∧ new < v.retained)
      (q.conditionHolds old = false → ∃ t, exec .amend s = .next t ∧ ChangesOnly [.port] s t ∧
        Answered s t (reply 21 (recordTag r) .mismatch (.amend))) ∧
      (q.conditionHolds old = true → ∃ t w, exec .amend s = .next t ∧ t.vol i = some w ∧
        w.limit = new ∧ ChangesOnly [.cat, .port] s t ∧
        (above = false → w.retained = v.retained) ∧
        Answered s t (reply 21 (recordTag r) .ok
          (.amend v.limit new (decide (new ≠ v.limit)) .normal above)))

/-- EVENTS (R176): one entry for every non-empty kind in ascending kind number, with its count and last subject;
then every flag, count and subject is clear and EVENT_PENDING is not due. -/
def Obligations.EventsReturnsAndClearsTheSummary : Prop :=
  ∀ (s : State) (r : Bytes), Takes s 22 r → parseEmpty r = some () →
    ∃ t entries, exec .events s = .next t ∧ ChangesOnly [.port] s t ∧
      t.port.requests = s.port.requests.drop 1 ∧
      t.port.completions = s.port.completions ++
        [reply 22 (recordTag r) .ok (.events entries)] ∧
      entries.length ≤ 15 ∧ entries.Pairwise (fun a b => a.1 < b.1) ∧
      (∀ n c x, (n, c, x) ∈ entries ↔ ∃ k : Fin 15, n = k.val + 1 ∧
        s.port.events[k] = { flag := true, count := c, subject := x }) ∧
      (∀ k : Fin 15, t.port.events[k] = { flag := false, count := 0, subject := 0 }) ∧
      t.port.eventDue = false

/-- EVENT_PENDING_NOTICE (R175): due and with notice room it is placed with the number of non-empty kinds and
the sum of their counts, and is due no more; otherwise nothing happens. -/
def Obligations.EventPendingIsPlacedWithRoom : Prop :=
  ∀ s : State, s.rst = false →
    (s.port.eventDue = false ∨ 55 < s.port.completions.length →
      exec .eventPendingNotice s = .next s) ∧
    (s.port.eventDue = true → s.port.completions.length ≤ 55 →
      let live := (List.finRange 15).filter fun k : Fin 15 => s.port.events[k].flag
      exec .eventPendingNotice s = .next (s.setPort { s.port with
        eventDue := false
        completions := s.port.completions ++ [noticeOf 7 (.eventPending live.length
          (live.map fun k => s.port.events[k].count).sum)] }))

/-- RESTART (R177, R188): every block goes to its reset values but the straps and the image with its check
result; the request queue is emptied, the one completion carries the station number and the state entered,
and the part enters LOADING after a good image, HALTED with CONFIG_BAD raised after a bad one. -/
def Obligations.RestartKeepsStrapsAndImage : Prop :=
  ∀ (s : State) (r : Bytes), Takes s 23 r → parseEmpty r = some () →
    ∃ t more, exec .restart s = .next t ∧ t.rst = false ∧ t.station = s.station ∧
      t.maint = s.maint ∧ t.image = s.image ∧ t.checkFailure = s.checkFailure ∧
      t.pending = s.pending ∧ t.part = (if s.image.isSome then .loading else .halted) ∧
      t.time = Timebase.reset ∧ t.port.requests = [] ∧ t.port.dropped = false ∧
      t.port.completions = reply 23 (recordTag r) .ok (.restart s.station.val t.part 0) :: more ∧
      (s.image.isSome = true → more = [] ∧ t.port.events = Port.reset.events ∧
        t.link = { Link.reset with
          state := .listening
          announceNext := some (s.cfg.announceInterval * 1000)
          rng := { station := s.station, generation := 0, drawn := 0 } }) ∧
      (s.image = none → more = [noticeOf 7 (.eventPending 1 1)] ∧ t.link = Link.reset ∧
        t.port.events[EventKind.index .configBad] = { flag := true, count := 1, subject := 0 }) ∧
      t.owners = [] ∧ t.adm = { entries := [], handleCounter := 0 } ∧ t.cat = Catalogue.reset ∧
      t.poolFree = 4096 ∧ t.rsc = Restore.reset ∧ t.dup = Duplication.reset

/-- The reload requests (R22, R86, R87, R138, R144, R184 to R186). LOAD_VOLUME makes the record of R86 in the
lowest free slot, with FULL_SCAN set; LOAD_SNAPSHOT makes a record, adds its buckets to the retained count
and takes the base reference at the base epoch; LOAD_OWNER makes the record of R22 or replaces local used
and override. -/
def Obligations.ReloadMakesItsRecords : Prop :=
  ∀ (s : State) (r : Bytes),
    (∀ (q : LoadVolumeReq) (i : Fin 8), Takes s 24 r → parseLoadVolume r = some q →
      q.volume ≠ 0 → q.size ≠ 0 → q.openEpoch ≠ 0 → q.profile ≤ 3 → q.autoExpire ≤ 1 →
      q.dupEnable ≤ 1 → (q.basePresent = 0 ∨ q.basePresent = 1 ∧ q.base ≠ 0 ∧
        q.base < q.openEpoch) → s.findVol q.volume = none → s.vol i = none →
      (∀ j, j < i → (s.vol j).isSome = true) →
      ∃ t, exec .loadVolume s = .next t ∧ ChangesOnly [.cat, .port] s t ∧
        Answered s t (reply 24 (recordTag r) .ok (.loadVolume i.val)) ∧
        t.cat.snaps = s.cat.snaps ∧ (∀ j, j ≠ i → t.vol j = s.vol j) ∧
        ∃ v, t.vol i = some v ∧ v.id = q.volume ∧ v.size = q.size ∧
          v.openEpoch = q.openEpoch ∧ v.limit = q.limit ∧ v.autoExpire = (q.autoExpire == 1) ∧
          v.dupEnable = (q.dupEnable == 1) ∧ v.profile.val = q.profile ∧ v.retained = 0 ∧
          v.base = (if q.basePresent = 1 then some q.base else none) ∧ v.current = [] ∧
          v.send = .extents [] ∧ v.fullScan = true ∧ v.dup = .idle ∧ v.sendEpoch = none ∧
          v.failures = 0 ∧ v.outstanding = 0 ∧ v.overReported = false ∧
          v.expiryWaiting = false ∧ v.cutDue = false ∧ v.endDue = false ∧ v.atRisk = false) ∧
    (∀ (q : LoadSnapshotReq) (kind : SnapKind) (i : Fin 8) (v : Volume), Takes s 25 r →
      parseLoadSnapshot r = some q → SnapKind.ofCode (q.kindHold % 128) = some kind →
      q.volume ≠ 0 → q.epoch ≠ 0 → s.findVol q.volume = some (i, v) → q.epoch < v.openEpoch →
      (∀ n, s.newest i = some n → n < q.epoch) → birthsAscend q.buckets = true →
      (∀ b ∈ q.buckets, b.birth ≤ q.epoch ∧ b.blocks ≠ 0) →
      bucketTotal q.buckets + v.retained ≤ 4294967295 → s.cat.snaps.length < 256 →
      let retained := v.retained + bucketTotal q.buckets
      let x : Snapshot :=
        { slot := i, epoch := q.epoch, kind, tag := q.label, created := s.time.uptime,
          hold := decide (128 ≤ q.kindHold), pin := false,
          refs := if v.base = some q.epoch then 1 else 0, buckets := q.buckets }
      ∃ t, exec .loadSnapshot s = .next t ∧ ChangesOnly [.cat, .port] s t ∧
        t.cat = { s.cat with
          vols := s.cat.vols.set i (some { v with retained := retained })
          snaps := s.cat.snaps ++ [x] } ∧
        Answered s t (reply 25 (recordTag r) .ok (.loadSnapshot retained))) ∧
    ∀ (q : LoadOwnerReq) (cls : Fin 8), Takes s 26 r → parseLoadOwner r = some q →
      invalidOwner q.owner = false → q.overridePresent ≤ 1 → s.classOf q.owner = some cls →
      let override : Option Limits :=
        if q.overridePresent = 1 then some { soft := q.soft, hard := q.hard } else none
      (∀ o, s.findOwner q.owner = some o → ∃ t, exec .loadOwner s = .next t ∧
        t.findOwner q.owner = some (s.reevaluate { o with
          used := q.used, override := override, lastCharge := s.time.uptime }) ∧
        OthersKept q.owner s t ∧ ChangesOnly [.owners, .port] s t ∧
        Answered s t (reply 26 (recordTag r) .ok (.loadOwner o.cls.val t.owners.length))) ∧
      (s.findOwner q.owner = none → s.owners.length < 4096 → ∃ t, exec .loadOwner s = .next t ∧
        t.findOwner q.owner = some (s.reevaluate
          { id := q.owner, cls, used := q.used, reserved := 0, contributions := [],
            overflow := false, override := override, grace := none, graceTaken := false,
            warmUp := none, lastReported := 0, reportTime := none,
            lastCharge := s.time.uptime }) ∧
        OthersKept q.owner s t ∧ t.owners.length = s.owners.length + 1 ∧
        ChangesOnly [.owners, .port] s t ∧
        Answered s t (reply 26 (recordTag r) .ok (.loadOwner cls.val t.owners.length)))

/-- LOAD_DONE (R23, R100, R187): the part is SERVING under the generation given, the hold lock is OPEN when the image
says so or MAINT is high and CLOSED otherwise (image stands as the cause where both say OPEN, log 19), every owner
starts its warm-up, and a base epoch that names no snapshot is removed with FULL_SCAN set. A generation of 0 is
BAD_FIELD. -/
def Obligations.LoadDoneStartsService : Prop :=
  ∀ (s : State) (r : Bytes) (g : Nat), Takes s 27 r → parseNumber2 r = some g →
    (g = 0 → ∃ t, exec .loadDone s = .next t ∧ ChangesOnly [.port] s t ∧
      Answered s t (reply 27 (recordTag r) .badField (.loadDone))) ∧
    (g ≠ 0 →
      let lock : HoldLock :=
        if s.cfg.lockAtStart = .opened ∨ s.maint = true then .opened else .closed
      let vols := (List.finRange 8).filter fun i => (s.vol i).isSome
      let gone := (List.finRange 8).filter fun i => (s.vol i).any fun v =>
        v.base.any fun e => (s.findSnap i e).isNone
      let cause : LockCause :=
        if s.cfg.lockAtStart = .opened then .image else if s.maint = true then .strap else .image
      ∃ t, exec .loadDone s = .next t ∧ t.part = .serving ∧ t.link.generation = g ∧
        t.link.rng = { station := s.station, generation := g, drawn := 0 } ∧
        t.link.peers = s.link.peers ∧ t.cat.lock = lock ∧ t.cat.lockClosedSince = false ∧
        t.cat.lockCause = cause ∧
        t.owners = s.owners.map (fun o => s.reevaluate { o with
          warmUp := some (s.time.uptime + s.cfg.sweepPeriod * 1000) }) ∧
        (∀ i v, s.vol i = some v → ∃ w, t.vol i = some w ∧ w.id = v.id ∧ w.size = v.size ∧
          (i ∈ gone → w.base = none ∧ w.fullScan = true) ∧
          (i ∉ gone → w.base = v.base ∧ w.fullScan = v.fullScan)) ∧
        t.time = s.time ∧ t.adm = s.adm ∧ t.rsc = s.rsc ∧ t.dup = s.dup ∧
        t.poolFree = s.poolFree ∧ t.image = s.image ∧
        Answered s t (reply 27 (recordTag r) .ok (.loadDone g vols.length s.cat.snaps.length
          s.owners.length gone.length lock cause)))

/-! ### Frames, lists and invariants -/

/-- What a command leaves unchanged: every block but those that mayChange names, the part state, the lines, the
straps, the image and the commands that wait (the frame of every command with such an entry; the other five
have statements of their own). The blocks of an entry are those that the rules of the command write, with the
steps that follow in it (R28, R33 to R45, R54, R73 to R83, R92 to R101, R106 to R120, R126 to R136, R140 to R160,
R64 to R66, R172 to R176, R184 to R186). -/
def Obligations.CommandsChangeOnlyTheirBlocks : Prop :=
  ∀ (c : Instr) (s t : State) (l : List Block), mayChange c = some l → exec c s = .next t →
    ChangesOnly l s t

/-- An append (R126, R127): the list stays ordered, disjoint and cut as R125 says, covers exactly its old blocks
and those of the extent, and the pieces it needs replace the entries it absorbs. -/
def Obligations.JoinedExtentCoversItsBlocks : Prop :=
  ∀ (l : List Extent) (x : Extent), ListOk l → 1 ≤ x.length →
    ListOk (joinExtent l x).list ∧
    (∀ b, (∃ e ∈ (joinExtent l x).list, e.start ≤ b ∧ b < e.start + e.length) ↔
      (∃ e ∈ l, e.start ≤ b ∧ b < e.start + e.length) ∨
        (x.start ≤ b ∧ b < x.start + x.length)) ∧
    (joinExtent l x).list.length + (joinExtent l x).absorbed =
      l.length + (joinExtent l x).pieces ∧
    (joinExtent l x).absorbed ≤ l.length

/-- No step takes a queue of the port past 64 records (R164, R166 to R168), or the Owner Table past 4,096
records, out of ascending owner ID, or a contribution list past six entries, out of ascending station
number, to an entry of 0 blocks or to one of the own station (R3, section 1.4). -/
def Obligations.StepKeepsQueuesAndOwnersInForm : Prop :=
  ∀ s t : State, step s = .next t →
    (QueuesBounded s → QueuesBounded t) ∧ (OwnersOrdered s → OwnersOrdered t)

/-- Every step keeps the image, the link and the hold lock agreeing with the part state (R48, R67, R100, R182),
and the transmitter silent outside ACTIVE (R55). -/
def Obligations.StepKeepsModesAgreeing : Prop :=
  ∀ s t : State, ModesAgree s → QuietOutsideActive s → step s = .next t →
    ModesAgree t ∧ QuietOutsideActive t

/-- Every step keeps the accumulator and the share within their bounds (R156, R157), and the running-restores
count equal to the number of contexts RUNNING or DRAINING (R105, R160). -/
def Obligations.StepKeepsPacingAndRunningCount : Prop :=
  ∀ s t : State, step s = .next t →
    (PacingBounded s → PacingBounded t) ∧ (RunningCounted s → RunningCounted t)

/-- Every step keeps each volume's retained count equal to the sum of its snapshots' buckets (R70), with
distinct epochs below the open epoch (R71, R72). -/
def Obligations.StepKeepsRetainedCounts : Prop :=
  ∀ s t : State, RetainedCounted s → step s = .next t → RetainedCounted t

/-- Every step keeps the free entries, those of all lists and the pieces of all tickets at a total of 4,096
(R124), every list in the form of R125, and the FULL_SCAN flag of every volume set outside SERVING (R138). -/
def Obligations.StepConservesTheExtentPool : Prop :=
  ∀ s t : State, PoolConserved s → step s = .next t → PoolConserved t

/-- Every step keeps the reservation table in its form (R26, R27), each owner's local reserved equal to the sum of the
blocks of its entries, with the entries of restore jobs and their contexts agreeing (R3, R43 to R45), and the
references of each snapshot equal to the restore contexts and the duplication roles that name it, and these
naming snapshots that stand (R94 to R97). -/
def Obligations.StepKeepsReservationsAndReferences : Prop :=
  ∀ s t : State, step s = .next t →
    (ReservationTableOk s → ReservationTableOk t) ∧
    (OwnersOrdered s → ReservationTableOk s → ReservedCounted s → ReservedCounted t) ∧
    (RetainedCounted s → ReferencesCounted s → ReferencesCounted t)

/-- The state right after reset satisfies every invariant above. -/
def Obligations.ResetSatisfiesTheInvariants : Prop :=
  QueuesBounded State.reset ∧ OwnersOrdered State.reset ∧ ModesAgree State.reset ∧
    QuietOutsideActive State.reset ∧ PacingBounded State.reset ∧ RunningCounted State.reset ∧
    RetainedCounted State.reset ∧ PoolConserved State.reset ∧ ReservationTableOk State.reset ∧
    ReservedCounted State.reset ∧ ReferencesCounted State.reset
end

