-- ==== Sys2Proof/Laws/State.lean ====
section
/-! SUPPORT. The small lemmas of the updates of Machine/Ops.lean: what each field holds after each update,
and the update of a block with what it holds already. -/

namespace Sys2Proof.Machine.State

variable (s : State)

/-! ### setRst -/

@[simp] theorem setRst_rst (x : Bool) : (s.setRst x).rst = x := rfl
@[simp] theorem setRst_part (x : Bool) : (s.setRst x).part = s.part := rfl
@[simp] theorem setRst_station (x : Bool) : (s.setRst x).station = s.station := rfl
@[simp] theorem setRst_maint (x : Bool) : (s.setRst x).maint = s.maint := rfl
@[simp] theorem setRst_image (x : Bool) : (s.setRst x).image = s.image := rfl
@[simp] theorem setRst_checkFailure (x : Bool) : (s.setRst x).checkFailure = s.checkFailure := rfl
@[simp] theorem setRst_time (x : Bool) : (s.setRst x).time = s.time := rfl
@[simp] theorem setRst_port (x : Bool) : (s.setRst x).port = s.port := rfl
@[simp] theorem setRst_owners (x : Bool) : (s.setRst x).owners = s.owners := rfl
@[simp] theorem setRst_adm (x : Bool) : (s.setRst x).adm = s.adm := rfl
@[simp] theorem setRst_link (x : Bool) : (s.setRst x).link = s.link := rfl
@[simp] theorem setRst_cat (x : Bool) : (s.setRst x).cat = s.cat := rfl
@[simp] theorem setRst_poolFree (x : Bool) : (s.setRst x).poolFree = s.poolFree := rfl
@[simp] theorem setRst_rsc (x : Bool) : (s.setRst x).rsc = s.rsc := rfl
@[simp] theorem setRst_dup (x : Bool) : (s.setRst x).dup = s.dup := rfl
@[simp] theorem setRst_pending (x : Bool) : (s.setRst x).pending = s.pending := rfl
@[simp] theorem setRst_self : s.setRst s.rst = s := rfl
@[simp] theorem setRst_setRst_twice (x y : Bool) : (s.setRst x).setRst y = s.setRst y := rfl

/-! ### setPart -/

@[simp] theorem setPart_rst (x : PartState) : (s.setPart x).rst = s.rst := rfl
@[simp] theorem setPart_part (x : PartState) : (s.setPart x).part = x := rfl
@[simp] theorem setPart_station (x : PartState) : (s.setPart x).station = s.station := rfl
@[simp] theorem setPart_maint (x : PartState) : (s.setPart x).maint = s.maint := rfl
@[simp] theorem setPart_image (x : PartState) : (s.setPart x).image = s.image := rfl
@[simp] theorem setPart_checkFailure (x : PartState) : (s.setPart x).checkFailure = s.checkFailure := rfl
@[simp] theorem setPart_time (x : PartState) : (s.setPart x).time = s.time := rfl
@[simp] theorem setPart_port (x : PartState) : (s.setPart x).port = s.port := rfl
@[simp] theorem setPart_owners (x : PartState) : (s.setPart x).owners = s.owners := rfl
@[simp] theorem setPart_adm (x : PartState) : (s.setPart x).adm = s.adm := rfl
@[simp] theorem setPart_link (x : PartState) : (s.setPart x).link = s.link := rfl
@[simp] theorem setPart_cat (x : PartState) : (s.setPart x).cat = s.cat := rfl
@[simp] theorem setPart_poolFree (x : PartState) : (s.setPart x).poolFree = s.poolFree := rfl
@[simp] theorem setPart_rsc (x : PartState) : (s.setPart x).rsc = s.rsc := rfl
@[simp] theorem setPart_dup (x : PartState) : (s.setPart x).dup = s.dup := rfl
@[simp] theorem setPart_pending (x : PartState) : (s.setPart x).pending = s.pending := rfl
@[simp] theorem setPart_self : s.setPart s.part = s := rfl
@[simp] theorem setPart_setPart_twice (x y : PartState) : (s.setPart x).setPart y = s.setPart y := rfl

/-! ### setImage -/

@[simp] theorem setImage_rst (x : Option Image) : (s.setImage x).rst = s.rst := rfl
@[simp] theorem setImage_part (x : Option Image) : (s.setImage x).part = s.part := rfl
@[simp] theorem setImage_station (x : Option Image) : (s.setImage x).station = s.station := rfl
@[simp] theorem setImage_maint (x : Option Image) : (s.setImage x).maint = s.maint := rfl
@[simp] theorem setImage_image (x : Option Image) : (s.setImage x).image = x := rfl
@[simp] theorem setImage_checkFailure (x : Option Image) : (s.setImage x).checkFailure = s.checkFailure := rfl
@[simp] theorem setImage_time (x : Option Image) : (s.setImage x).time = s.time := rfl
@[simp] theorem setImage_port (x : Option Image) : (s.setImage x).port = s.port := rfl
@[simp] theorem setImage_owners (x : Option Image) : (s.setImage x).owners = s.owners := rfl
@[simp] theorem setImage_adm (x : Option Image) : (s.setImage x).adm = s.adm := rfl
@[simp] theorem setImage_link (x : Option Image) : (s.setImage x).link = s.link := rfl
@[simp] theorem setImage_cat (x : Option Image) : (s.setImage x).cat = s.cat := rfl
@[simp] theorem setImage_poolFree (x : Option Image) : (s.setImage x).poolFree = s.poolFree := rfl
@[simp] theorem setImage_rsc (x : Option Image) : (s.setImage x).rsc = s.rsc := rfl
@[simp] theorem setImage_dup (x : Option Image) : (s.setImage x).dup = s.dup := rfl
@[simp] theorem setImage_pending (x : Option Image) : (s.setImage x).pending = s.pending := rfl
@[simp] theorem setImage_self : s.setImage s.image = s := rfl
@[simp] theorem setImage_setImage_twice (x y : Option Image) : (s.setImage x).setImage y = s.setImage y := rfl

/-! ### setCheckFailure -/

@[simp] theorem setCheckFailure_rst (x : Option CheckFailure) : (s.setCheckFailure x).rst = s.rst := rfl
@[simp] theorem setCheckFailure_part (x : Option CheckFailure) : (s.setCheckFailure x).part = s.part := rfl
@[simp] theorem setCheckFailure_station (x : Option CheckFailure) : (s.setCheckFailure x).station = s.station := rfl
@[simp] theorem setCheckFailure_maint (x : Option CheckFailure) : (s.setCheckFailure x).maint = s.maint := rfl
@[simp] theorem setCheckFailure_image (x : Option CheckFailure) : (s.setCheckFailure x).image = s.image := rfl
@[simp] theorem setCheckFailure_checkFailure (x : Option CheckFailure) : (s.setCheckFailure x).checkFailure = x := rfl
@[simp] theorem setCheckFailure_time (x : Option CheckFailure) : (s.setCheckFailure x).time = s.time := rfl
@[simp] theorem setCheckFailure_port (x : Option CheckFailure) : (s.setCheckFailure x).port = s.port := rfl
@[simp] theorem setCheckFailure_owners (x : Option CheckFailure) : (s.setCheckFailure x).owners = s.owners := rfl
@[simp] theorem setCheckFailure_adm (x : Option CheckFailure) : (s.setCheckFailure x).adm = s.adm := rfl
@[simp] theorem setCheckFailure_link (x : Option CheckFailure) : (s.setCheckFailure x).link = s.link := rfl
@[simp] theorem setCheckFailure_cat (x : Option CheckFailure) : (s.setCheckFailure x).cat = s.cat := rfl
@[simp] theorem setCheckFailure_poolFree (x : Option CheckFailure) : (s.setCheckFailure x).poolFree = s.poolFree := rfl
@[simp] theorem setCheckFailure_rsc (x : Option CheckFailure) : (s.setCheckFailure x).rsc = s.rsc := rfl
@[simp] theorem setCheckFailure_dup (x : Option CheckFailure) : (s.setCheckFailure x).dup = s.dup := rfl
@[simp] theorem setCheckFailure_pending (x : Option CheckFailure) : (s.setCheckFailure x).pending = s.pending := rfl
@[simp] theorem setCheckFailure_self : s.setCheckFailure s.checkFailure = s := rfl
@[simp] theorem setCheckFailure_setCheckFailure_twice (x y : Option CheckFailure) : (s.setCheckFailure x).setCheckFailure y = s.setCheckFailure y := rfl

/-! ### setTime -/

@[simp] theorem setTime_rst (x : Timebase) : (s.setTime x).rst = s.rst := rfl
@[simp] theorem setTime_part (x : Timebase) : (s.setTime x).part = s.part := rfl
@[simp] theorem setTime_station (x : Timebase) : (s.setTime x).station = s.station := rfl
@[simp] theorem setTime_maint (x : Timebase) : (s.setTime x).maint = s.maint := rfl
@[simp] theorem setTime_image (x : Timebase) : (s.setTime x).image = s.image := rfl
@[simp] theorem setTime_checkFailure (x : Timebase) : (s.setTime x).checkFailure = s.checkFailure := rfl
@[simp] theorem setTime_time (x : Timebase) : (s.setTime x).time = x := rfl
@[simp] theorem setTime_port (x : Timebase) : (s.setTime x).port = s.port := rfl
@[simp] theorem setTime_owners (x : Timebase) : (s.setTime x).owners = s.owners := rfl
@[simp] theorem setTime_adm (x : Timebase) : (s.setTime x).adm = s.adm := rfl
@[simp] theorem setTime_link (x : Timebase) : (s.setTime x).link = s.link := rfl
@[simp] theorem setTime_cat (x : Timebase) : (s.setTime x).cat = s.cat := rfl
@[simp] theorem setTime_poolFree (x : Timebase) : (s.setTime x).poolFree = s.poolFree := rfl
@[simp] theorem setTime_rsc (x : Timebase) : (s.setTime x).rsc = s.rsc := rfl
@[simp] theorem setTime_dup (x : Timebase) : (s.setTime x).dup = s.dup := rfl
@[simp] theorem setTime_pending (x : Timebase) : (s.setTime x).pending = s.pending := rfl
@[simp] theorem setTime_self : s.setTime s.time = s := rfl
@[simp] theorem setTime_setTime_twice (x y : Timebase) : (s.setTime x).setTime y = s.setTime y := rfl

/-! ### setPort -/

@[simp] theorem setPort_rst (x : Port) : (s.setPort x).rst = s.rst := rfl
@[simp] theorem setPort_part (x : Port) : (s.setPort x).part = s.part := rfl
@[simp] theorem setPort_station (x : Port) : (s.setPort x).station = s.station := rfl
@[simp] theorem setPort_maint (x : Port) : (s.setPort x).maint = s.maint := rfl
@[simp] theorem setPort_image (x : Port) : (s.setPort x).image = s.image := rfl
@[simp] theorem setPort_checkFailure (x : Port) : (s.setPort x).checkFailure = s.checkFailure := rfl
@[simp] theorem setPort_time (x : Port) : (s.setPort x).time = s.time := rfl
@[simp] theorem setPort_port (x : Port) : (s.setPort x).port = x := rfl
@[simp] theorem setPort_owners (x : Port) : (s.setPort x).owners = s.owners := rfl
@[simp] theorem setPort_adm (x : Port) : (s.setPort x).adm = s.adm := rfl
@[simp] theorem setPort_link (x : Port) : (s.setPort x).link = s.link := rfl
@[simp] theorem setPort_cat (x : Port) : (s.setPort x).cat = s.cat := rfl
@[simp] theorem setPort_poolFree (x : Port) : (s.setPort x).poolFree = s.poolFree := rfl
@[simp] theorem setPort_rsc (x : Port) : (s.setPort x).rsc = s.rsc := rfl
@[simp] theorem setPort_dup (x : Port) : (s.setPort x).dup = s.dup := rfl
@[simp] theorem setPort_pending (x : Port) : (s.setPort x).pending = s.pending := rfl
@[simp] theorem setPort_self : s.setPort s.port = s := rfl
@[simp] theorem setPort_setPort_twice (x y : Port) : (s.setPort x).setPort y = s.setPort y := rfl

/-! ### setOwners -/

@[simp] theorem setOwners_rst (x : List Owner) : (s.setOwners x).rst = s.rst := rfl
@[simp] theorem setOwners_part (x : List Owner) : (s.setOwners x).part = s.part := rfl
@[simp] theorem setOwners_station (x : List Owner) : (s.setOwners x).station = s.station := rfl
@[simp] theorem setOwners_maint (x : List Owner) : (s.setOwners x).maint = s.maint := rfl
@[simp] theorem setOwners_image (x : List Owner) : (s.setOwners x).image = s.image := rfl
@[simp] theorem setOwners_checkFailure (x : List Owner) : (s.setOwners x).checkFailure = s.checkFailure := rfl
@[simp] theorem setOwners_time (x : List Owner) : (s.setOwners x).time = s.time := rfl
@[simp] theorem setOwners_port (x : List Owner) : (s.setOwners x).port = s.port := rfl
@[simp] theorem setOwners_owners (x : List Owner) : (s.setOwners x).owners = x := rfl
@[simp] theorem setOwners_adm (x : List Owner) : (s.setOwners x).adm = s.adm := rfl
@[simp] theorem setOwners_link (x : List Owner) : (s.setOwners x).link = s.link := rfl
@[simp] theorem setOwners_cat (x : List Owner) : (s.setOwners x).cat = s.cat := rfl
@[simp] theorem setOwners_poolFree (x : List Owner) : (s.setOwners x).poolFree = s.poolFree := rfl
@[simp] theorem setOwners_rsc (x : List Owner) : (s.setOwners x).rsc = s.rsc := rfl
@[simp] theorem setOwners_dup (x : List Owner) : (s.setOwners x).dup = s.dup := rfl
@[simp] theorem setOwners_pending (x : List Owner) : (s.setOwners x).pending = s.pending := rfl
@[simp] theorem setOwners_self : s.setOwners s.owners = s := rfl
@[simp] theorem setOwners_setOwners_twice (x y : List Owner) : (s.setOwners x).setOwners y = s.setOwners y := rfl

/-! ### setAdm -/

@[simp] theorem setAdm_rst (x : Admission) : (s.setAdm x).rst = s.rst := rfl
@[simp] theorem setAdm_part (x : Admission) : (s.setAdm x).part = s.part := rfl
@[simp] theorem setAdm_station (x : Admission) : (s.setAdm x).station = s.station := rfl
@[simp] theorem setAdm_maint (x : Admission) : (s.setAdm x).maint = s.maint := rfl
@[simp] theorem setAdm_image (x : Admission) : (s.setAdm x).image = s.image := rfl
@[simp] theorem setAdm_checkFailure (x : Admission) : (s.setAdm x).checkFailure = s.checkFailure := rfl
@[simp] theorem setAdm_time (x : Admission) : (s.setAdm x).time = s.time := rfl
@[simp] theorem setAdm_port (x : Admission) : (s.setAdm x).port = s.port := rfl
@[simp] theorem setAdm_owners (x : Admission) : (s.setAdm x).owners = s.owners := rfl
@[simp] theorem setAdm_adm (x : Admission) : (s.setAdm x).adm = x := rfl
@[simp] theorem setAdm_link (x : Admission) : (s.setAdm x).link = s.link := rfl
@[simp] theorem setAdm_cat (x : Admission) : (s.setAdm x).cat = s.cat := rfl
@[simp] theorem setAdm_poolFree (x : Admission) : (s.setAdm x).poolFree = s.poolFree := rfl
@[simp] theorem setAdm_rsc (x : Admission) : (s.setAdm x).rsc = s.rsc := rfl
@[simp] theorem setAdm_dup (x : Admission) : (s.setAdm x).dup = s.dup := rfl
@[simp] theorem setAdm_pending (x : Admission) : (s.setAdm x).pending = s.pending := rfl
@[simp] theorem setAdm_self : s.setAdm s.adm = s := rfl
@[simp] theorem setAdm_setAdm_twice (x y : Admission) : (s.setAdm x).setAdm y = s.setAdm y := rfl

/-! ### setLink -/

@[simp] theorem setLink_rst (x : Link) : (s.setLink x).rst = s.rst := rfl
@[simp] theorem setLink_part (x : Link) : (s.setLink x).part = s.part := rfl
@[simp] theorem setLink_station (x : Link) : (s.setLink x).station = s.station := rfl
@[simp] theorem setLink_maint (x : Link) : (s.setLink x).maint = s.maint := rfl
@[simp] theorem setLink_image (x : Link) : (s.setLink x).image = s.image := rfl
@[simp] theorem setLink_checkFailure (x : Link) : (s.setLink x).checkFailure = s.checkFailure := rfl
@[simp] theorem setLink_time (x : Link) : (s.setLink x).time = s.time := rfl
@[simp] theorem setLink_port (x : Link) : (s.setLink x).port = s.port := rfl
@[simp] theorem setLink_owners (x : Link) : (s.setLink x).owners = s.owners := rfl
@[simp] theorem setLink_adm (x : Link) : (s.setLink x).adm = s.adm := rfl
@[simp] theorem setLink_link (x : Link) : (s.setLink x).link = x := rfl
@[simp] theorem setLink_cat (x : Link) : (s.setLink x).cat = s.cat := rfl
@[simp] theorem setLink_poolFree (x : Link) : (s.setLink x).poolFree = s.poolFree := rfl
@[simp] theorem setLink_rsc (x : Link) : (s.setLink x).rsc = s.rsc := rfl
@[simp] theorem setLink_dup (x : Link) : (s.setLink x).dup = s.dup := rfl
@[simp] theorem setLink_pending (x : Link) : (s.setLink x).pending = s.pending := rfl
@[simp] theorem setLink_self : s.setLink s.link = s := rfl
@[simp] theorem setLink_setLink_twice (x y : Link) : (s.setLink x).setLink y = s.setLink y := rfl

/-! ### setCat -/

@[simp] theorem setCat_rst (x : Catalogue) : (s.setCat x).rst = s.rst := rfl
@[simp] theorem setCat_part (x : Catalogue) : (s.setCat x).part = s.part := rfl
@[simp] theorem setCat_station (x : Catalogue) : (s.setCat x).station = s.station := rfl
@[simp] theorem setCat_maint (x : Catalogue) : (s.setCat x).maint = s.maint := rfl
@[simp] theorem setCat_image (x : Catalogue) : (s.setCat x).image = s.image := rfl
@[simp] theorem setCat_checkFailure (x : Catalogue) : (s.setCat x).checkFailure = s.checkFailure := rfl
@[simp] theorem setCat_time (x : Catalogue) : (s.setCat x).time = s.time := rfl
@[simp] theorem setCat_port (x : Catalogue) : (s.setCat x).port = s.port := rfl
@[simp] theorem setCat_owners (x : Catalogue) : (s.setCat x).owners = s.owners := rfl
@[simp] theorem setCat_adm (x : Catalogue) : (s.setCat x).adm = s.adm := rfl
@[simp] theorem setCat_link (x : Catalogue) : (s.setCat x).link = s.link := rfl
@[simp] theorem setCat_cat (x : Catalogue) : (s.setCat x).cat = x := rfl
@[simp] theorem setCat_poolFree (x : Catalogue) : (s.setCat x).poolFree = s.poolFree := rfl
@[simp] theorem setCat_rsc (x : Catalogue) : (s.setCat x).rsc = s.rsc := rfl
@[simp] theorem setCat_dup (x : Catalogue) : (s.setCat x).dup = s.dup := rfl
@[simp] theorem setCat_pending (x : Catalogue) : (s.setCat x).pending = s.pending := rfl
@[simp] theorem setCat_self : s.setCat s.cat = s := rfl
@[simp] theorem setCat_setCat_twice (x y : Catalogue) : (s.setCat x).setCat y = s.setCat y := rfl

/-! ### setPool -/

@[simp] theorem setPool_rst (x : Nat) : (s.setPool x).rst = s.rst := rfl
@[simp] theorem setPool_part (x : Nat) : (s.setPool x).part = s.part := rfl
@[simp] theorem setPool_station (x : Nat) : (s.setPool x).station = s.station := rfl
@[simp] theorem setPool_maint (x : Nat) : (s.setPool x).maint = s.maint := rfl
@[simp] theorem setPool_image (x : Nat) : (s.setPool x).image = s.image := rfl
@[simp] theorem setPool_checkFailure (x : Nat) : (s.setPool x).checkFailure = s.checkFailure := rfl
@[simp] theorem setPool_time (x : Nat) : (s.setPool x).time = s.time := rfl
@[simp] theorem setPool_port (x : Nat) : (s.setPool x).port = s.port := rfl
@[simp] theorem setPool_owners (x : Nat) : (s.setPool x).owners = s.owners := rfl
@[simp] theorem setPool_adm (x : Nat) : (s.setPool x).adm = s.adm := rfl
@[simp] theorem setPool_link (x : Nat) : (s.setPool x).link = s.link := rfl
@[simp] theorem setPool_cat (x : Nat) : (s.setPool x).cat = s.cat := rfl
@[simp] theorem setPool_poolFree (x : Nat) : (s.setPool x).poolFree = x := rfl
@[simp] theorem setPool_rsc (x : Nat) : (s.setPool x).rsc = s.rsc := rfl
@[simp] theorem setPool_dup (x : Nat) : (s.setPool x).dup = s.dup := rfl
@[simp] theorem setPool_pending (x : Nat) : (s.setPool x).pending = s.pending := rfl
@[simp] theorem setPool_self : s.setPool s.poolFree = s := rfl
@[simp] theorem setPool_setPool_twice (x y : Nat) : (s.setPool x).setPool y = s.setPool y := rfl

/-! ### setRsc -/

@[simp] theorem setRsc_rst (x : Restore) : (s.setRsc x).rst = s.rst := rfl
@[simp] theorem setRsc_part (x : Restore) : (s.setRsc x).part = s.part := rfl
@[simp] theorem setRsc_station (x : Restore) : (s.setRsc x).station = s.station := rfl
@[simp] theorem setRsc_maint (x : Restore) : (s.setRsc x).maint = s.maint := rfl
@[simp] theorem setRsc_image (x : Restore) : (s.setRsc x).image = s.image := rfl
@[simp] theorem setRsc_checkFailure (x : Restore) : (s.setRsc x).checkFailure = s.checkFailure := rfl
@[simp] theorem setRsc_time (x : Restore) : (s.setRsc x).time = s.time := rfl
@[simp] theorem setRsc_port (x : Restore) : (s.setRsc x).port = s.port := rfl
@[simp] theorem setRsc_owners (x : Restore) : (s.setRsc x).owners = s.owners := rfl
@[simp] theorem setRsc_adm (x : Restore) : (s.setRsc x).adm = s.adm := rfl
@[simp] theorem setRsc_link (x : Restore) : (s.setRsc x).link = s.link := rfl
@[simp] theorem setRsc_cat (x : Restore) : (s.setRsc x).cat = s.cat := rfl
@[simp] theorem setRsc_poolFree (x : Restore) : (s.setRsc x).poolFree = s.poolFree := rfl
@[simp] theorem setRsc_rsc (x : Restore) : (s.setRsc x).rsc = x := rfl
@[simp] theorem setRsc_dup (x : Restore) : (s.setRsc x).dup = s.dup := rfl
@[simp] theorem setRsc_pending (x : Restore) : (s.setRsc x).pending = s.pending := rfl
@[simp] theorem setRsc_self : s.setRsc s.rsc = s := rfl
@[simp] theorem setRsc_setRsc_twice (x y : Restore) : (s.setRsc x).setRsc y = s.setRsc y := rfl

/-! ### setDup -/

@[simp] theorem setDup_rst (x : Duplication) : (s.setDup x).rst = s.rst := rfl
@[simp] theorem setDup_part (x : Duplication) : (s.setDup x).part = s.part := rfl
@[simp] theorem setDup_station (x : Duplication) : (s.setDup x).station = s.station := rfl
@[simp] theorem setDup_maint (x : Duplication) : (s.setDup x).maint = s.maint := rfl
@[simp] theorem setDup_image (x : Duplication) : (s.setDup x).image = s.image := rfl
@[simp] theorem setDup_checkFailure (x : Duplication) : (s.setDup x).checkFailure = s.checkFailure := rfl
@[simp] theorem setDup_time (x : Duplication) : (s.setDup x).time = s.time := rfl
@[simp] theorem setDup_port (x : Duplication) : (s.setDup x).port = s.port := rfl
@[simp] theorem setDup_owners (x : Duplication) : (s.setDup x).owners = s.owners := rfl
@[simp] theorem setDup_adm (x : Duplication) : (s.setDup x).adm = s.adm := rfl
@[simp] theorem setDup_link (x : Duplication) : (s.setDup x).link = s.link := rfl
@[simp] theorem setDup_cat (x : Duplication) : (s.setDup x).cat = s.cat := rfl
@[simp] theorem setDup_poolFree (x : Duplication) : (s.setDup x).poolFree = s.poolFree := rfl
@[simp] theorem setDup_rsc (x : Duplication) : (s.setDup x).rsc = s.rsc := rfl
@[simp] theorem setDup_dup (x : Duplication) : (s.setDup x).dup = x := rfl
@[simp] theorem setDup_pending (x : Duplication) : (s.setDup x).pending = s.pending := rfl
@[simp] theorem setDup_self : s.setDup s.dup = s := rfl
@[simp] theorem setDup_setDup_twice (x y : Duplication) : (s.setDup x).setDup y = s.setDup y := rfl

/-! ### setPending -/

@[simp] theorem setPending_rst (x : List Instr) : (s.setPending x).rst = s.rst := rfl
@[simp] theorem setPending_part (x : List Instr) : (s.setPending x).part = s.part := rfl
@[simp] theorem setPending_station (x : List Instr) : (s.setPending x).station = s.station := rfl
@[simp] theorem setPending_maint (x : List Instr) : (s.setPending x).maint = s.maint := rfl
@[simp] theorem setPending_image (x : List Instr) : (s.setPending x).image = s.image := rfl
@[simp] theorem setPending_checkFailure (x : List Instr) : (s.setPending x).checkFailure = s.checkFailure := rfl
@[simp] theorem setPending_time (x : List Instr) : (s.setPending x).time = s.time := rfl
@[simp] theorem setPending_port (x : List Instr) : (s.setPending x).port = s.port := rfl
@[simp] theorem setPending_owners (x : List Instr) : (s.setPending x).owners = s.owners := rfl
@[simp] theorem setPending_adm (x : List Instr) : (s.setPending x).adm = s.adm := rfl
@[simp] theorem setPending_link (x : List Instr) : (s.setPending x).link = s.link := rfl
@[simp] theorem setPending_cat (x : List Instr) : (s.setPending x).cat = s.cat := rfl
@[simp] theorem setPending_poolFree (x : List Instr) : (s.setPending x).poolFree = s.poolFree := rfl
@[simp] theorem setPending_rsc (x : List Instr) : (s.setPending x).rsc = s.rsc := rfl
@[simp] theorem setPending_dup (x : List Instr) : (s.setPending x).dup = s.dup := rfl
@[simp] theorem setPending_pending (x : List Instr) : (s.setPending x).pending = x := rfl
@[simp] theorem setPending_self : s.setPending s.pending = s := rfl
@[simp] theorem setPending_setPending_twice (x y : List Instr) : (s.setPending x).setPending y = s.setPending y := rfl

end Sys2Proof.Machine.State
end

