-- ==== Sys2Proof/Laws/Frames.lean ====
section
/-! SUPPORT. What each shared operation may change: for every operation one lemma that names the only
blocks it can touch. The lemmas of the commands follow from these by transitivity. -/

namespace Sys2Proof.Safety

open Sys2Proof.Machine

variable {l l' : List Block} {s t u : State}

/-! ### The calculus -/

theorem ChangesOnly.refl (l : List Block) (s : State) : ChangesOnly l s s :=
  ⟨⟨rfl, rfl, rfl, rfl, rfl, rfl, rfl⟩, fun b _ => by cases b <;> rfl⟩

theorem ChangesOnly.trans (h : ChangesOnly l s t) (k : ChangesOnly l t u) : ChangesOnly l s u := by
  obtain ⟨⟨a1, a2, a3, a4, a5, a6, a7⟩, ha⟩ := h
  obtain ⟨⟨b1, b2, b3, b4, b5, b6, b7⟩, hb⟩ := k
  refine ⟨⟨b1.trans a1, b2.trans a2, b3.trans a3, b4.trans a4, b5.trans a5, b6.trans a6,
    b7.trans a7⟩, fun b hm => ?_⟩
  have x := ha b hm
  have y := hb b hm
  cases b <;> exact Eq.trans y x

theorem ChangesOnly.mono (h : ChangesOnly l s t) (sub : l ⊆ l') : ChangesOnly l' s t :=
  ⟨h.1, fun b hm => h.2 b fun hl => hm (sub hl)⟩

/-- A chain of steps over a list changes what each of them may change. -/
theorem ChangesOnly.foldl {α : Type} {f : State → α → State}
    (h : ∀ s a, ChangesOnly l s (f s a)) (xs : List α) (s : State) :
    ChangesOnly l s (xs.foldl f s) := by
  induction xs generalizing s with
  | nil => exact .refl l s
  | cons a as ih => exact (h s a).trans (ih _)

/-- Either branch of a choice. -/
theorem ChangesOnly.ite {p : Prop} [Decidable p] {a b : State} (h : p → ChangesOnly l s a)
    (k : ¬p → ChangesOnly l s b) : ChangesOnly l s (if p then a else b) := by
  by_cases hp : p
  · rw [if_pos hp]; exact h hp
  · rw [if_neg hp]; exact k hp

/-! ### The updates of one block -/

theorem setTime_changes (s : State) (x : Timebase) : ChangesOnly [.time] s (s.setTime x) :=
  ⟨⟨rfl, rfl, rfl, rfl, rfl, rfl, rfl⟩, fun b hb => by cases b <;> first | rfl | simp at hb⟩
theorem setPort_changes (s : State) (x : Port) : ChangesOnly [.port] s (s.setPort x) :=
  ⟨⟨rfl, rfl, rfl, rfl, rfl, rfl, rfl⟩, fun b hb => by cases b <;> first | rfl | simp at hb⟩
theorem setOwners_changes (s : State) (x : List Owner) : ChangesOnly [.owners] s (s.setOwners x) :=
  ⟨⟨rfl, rfl, rfl, rfl, rfl, rfl, rfl⟩, fun b hb => by cases b <;> first | rfl | simp at hb⟩
theorem setAdm_changes (s : State) (x : Admission) : ChangesOnly [.adm] s (s.setAdm x) :=
  ⟨⟨rfl, rfl, rfl, rfl, rfl, rfl, rfl⟩, fun b hb => by cases b <;> first | rfl | simp at hb⟩
theorem setLink_changes (s : State) (x : Link) : ChangesOnly [.link] s (s.setLink x) :=
  ⟨⟨rfl, rfl, rfl, rfl, rfl, rfl, rfl⟩, fun b hb => by cases b <;> first | rfl | simp at hb⟩
theorem setCat_changes (s : State) (x : Catalogue) : ChangesOnly [.cat] s (s.setCat x) :=
  ⟨⟨rfl, rfl, rfl, rfl, rfl, rfl, rfl⟩, fun b hb => by cases b <;> first | rfl | simp at hb⟩
theorem setPool_changes (s : State) (x : Nat) : ChangesOnly [.pool] s (s.setPool x) :=
  ⟨⟨rfl, rfl, rfl, rfl, rfl, rfl, rfl⟩, fun b hb => by cases b <;> first | rfl | simp at hb⟩
theorem setRsc_changes (s : State) (x : Restore) : ChangesOnly [.rsc] s (s.setRsc x) :=
  ⟨⟨rfl, rfl, rfl, rfl, rfl, rfl, rfl⟩, fun b hb => by cases b <;> first | rfl | simp at hb⟩
theorem setDup_changes (s : State) (x : Duplication) : ChangesOnly [.dup] s (s.setDup x) :=
  ⟨⟨rfl, rfl, rfl, rfl, rfl, rfl, rfl⟩, fun b hb => by cases b <;> first | rfl | simp at hb⟩

theorem putVol_changes (s : State) (i : Fin 8) (v : Option Volume) :
    ChangesOnly [.cat] s (s.putVol i v) := setCat_changes s _
theorem putContext_changes (s : State) (c : Fin 4) (x : Option Context) :
    ChangesOnly [.rsc] s (s.putContext c x) := setRsc_changes s _
theorem putTicket_changes (s : State) (t : Fin 16) (x : Option Ticket) :
    ChangesOnly [.dup] s (s.putTicket t x) := setDup_changes s _
theorem putPeer_changes (s : State) (i : Fin 16) (p : Peer) :
    ChangesOnly [.link] s (s.putPeer i p) := setLink_changes s _

theorem modifyVol_changes (s : State) (i : Fin 8) (f : Volume → Volume) :
    ChangesOnly [.cat] s (s.modifyVol i f) := by
  unfold State.modifyVol
  split
  · exact .refl _ _
  · exact putVol_changes ..

theorem modifyContext_changes (s : State) (c : Fin 4) (f : Context → Context) :
    ChangesOnly [.rsc] s (s.modifyContext c f) := by
  unfold State.modifyContext
  split
  · exact .refl _ _
  · exact putContext_changes ..

/-! ### The server port -/

theorem place_changes (s : State) (r : Record) : ChangesOnly [.port] s (s.place r) :=
  setPort_changes s _

theorem notice_changes (s : State) (n : Nat) (b : Body) : ChangesOnly [.port] s (s.notice n b) :=
  setPort_changes s _

theorem raise_changes (s : State) (k : EventKind) (n : Nat) : ChangesOnly [.port] s (s.raise k n) :=
  setPort_changes s _

theorem dropHead_changes (s : State) : ChangesOnly [.port] s s.dropHead := setPort_changes s _

theorem flushEvent_changes (s : State) : ChangesOnly [.port] s s.flushEvent := by
  unfold State.flushEvent
  exact .ite (fun _ => (setPort_changes s _).trans (notice_changes _ _ _)) fun _ => .refl _ _

theorem answerPart_changes (s : State) (kind tag part parts : Nat) (st : Status) (b : Body) :
    ChangesOnly [.port] s (s.answerPart kind tag part parts st b) :=
  (place_changes s _).trans (flushEvent_changes _)

theorem answer_changes (s : State) (kind tag : Nat) (st : Status) (b : Body) :
    ChangesOnly [.port] s (s.answer kind tag st b) := answerPart_changes ..

/-- Taking a request changes the port and what its rule may change. -/
theorem takeRequest_changes {α : Type} (kind : Nat) (parse : Bytes → Option α) (blank : Body)
    (carry : Nat → α → State → State) (hp : Block.port ∈ l)
    (h : ∀ tag q s, ChangesOnly l s (carry tag q s)) (s : State) :
    ChangesOnly l s (takeRequest kind parse blank carry s) := by
  have sub : [Block.port] ⊆ l := by simpa using hp
  unfold takeRequest
  split
  · exact .refl _ _
  · refine .ite (fun _ => ?_) fun _ => .refl _ _
    refine ((dropHead_changes s).mono sub).trans ?_
    dsimp only
    split
    · exact (answer_changes ..).mono sub
    · refine .ite (fun _ => (answer_changes ..).mono sub) fun _ => ?_
      exact .ite (fun _ => h _ _ _) fun _ => (answer_changes ..).mono sub

/-! ### Owner Table and Admission Unit -/

theorem touchOwner_changes (s : State) (id : OwnerId) (f : Owner → Owner) :
    ChangesOnly [.owners] s (s.touchOwner id f) := by
  unfold State.touchOwner
  split
  · exact .refl _ _
  · exact setOwners_changes ..

theorem inspected_changes (s : State) (q : InspectReq) :
    ChangesOnly [.owners] s (s.inspected q) := by
  unfold State.inspected
  exact .ite (fun _ => touchOwner_changes ..) fun _ => .refl _ _

theorem addOwner_changes (s : State) (o : Owner) (h : s.addOwner o = some t) :
    ChangesOnly [.owners] s t := by
  unfold State.addOwner at h
  split at h
  · cases h; exact setOwners_changes ..
  · split at h
    · cases h
    · cases h; exact setOwners_changes ..

theorem ensureOwner_changes (s : State) (id : OwnerId) (c : Fin 8)
    (h : s.ensureOwner id c = some t) : ChangesOnly [.owners] s t := by
  unfold State.ensureOwner at h
  split at h
  · cases h; exact .refl _ _
  · exact addOwner_changes s _ h

theorem usageEntry_changes (s : State) (i : Fin 16) (g : Nat) (e : OwnerId × Nat) :
    ChangesOnly [.owners, .port] s (s.usageEntry i g e) := by
  unfold State.usageEntry
  refine .ite (fun _ => .refl _ _) fun _ => ?_
  split
  · exact .refl _ _
  · exact .ite
      (fun _ => ((setOwners_changes s _).mono (by decide)).trans
        ((raise_changes _ _ _).mono (by decide)))
      fun _ => (setOwners_changes s _).mono (by decide)

theorem removeEntry_changes (s : State) (e : Reservation) (f : Owner → Owner) :
    ChangesOnly [.owners, .adm] s (s.removeEntry e f) :=
  ((setAdm_changes s _).mono (by decide)).trans ((touchOwner_changes _ _ _).mono (by decide))

theorem grant_changes (s : State) (id : OwnerId) (c : Fin 8) (n v : Nat) (o : Origin)
    {e : Reservation} (h : s.grant id c n v o = some (e, t)) :
    ChangesOnly [.owners, .adm] s t := by
  unfold State.grant at h
  dsimp only at h
  split at h
  · split at h
    · cases h
    · rename_i w hw
      cases h
      exact ((ensureOwner_changes s _ _ hw).mono (by decide)).trans
        (((setAdm_changes w _).mono (by decide)).trans
          ((touchOwner_changes _ _ _).mono (by decide)))
  · cases h

theorem admit_changes (s : State) (id : OwnerId) (c : Fin 8) (n v : Nat) (o : Origin) :
    ChangesOnly [.owners, .adm] s (s.admitBlocks id c n v o).2 := by
  unfold State.admitBlocks
  have ht : ChangesOnly [.owners, .adm] s (s.touchOwner id fun o => o) :=
    (touchOwner_changes s id _).mono (by decide)
  dsimp only
  split
  · split
    · exact ht
    · rename_i hg
      exact ht.trans (grant_changes _ _ _ _ _ _ hg)
  · exact ht

/-! ### Link Controller -/

theorem takeSlot_changes (s : State) : ChangesOnly [.link] s s.takeSlot := by
  unfold State.takeSlot
  dsimp only
  refine .ite (fun _ => .ite (fun _ => setLink_changes ..) fun _ => ?_) fun _ => .refl _ _
  exact .ite (fun _ => setLink_changes ..) fun _ => .refl _ _

theorem fillAnnounce_changes (s : State) : ChangesOnly [.link] s s.fillAnnounce := by
  unfold State.fillAnnounce
  dsimp only
  refine .ite (fun _ => ?_) fun _ => .refl _ _
  split
  · exact setLink_changes ..
  · exact .refl _ _
  · exact .ite (fun _ => setLink_changes ..) fun _ => .refl _ _

theorem composeUsage_changes (s : State) : ChangesOnly [.link] s s.composeUsage := by
  unfold State.composeUsage
  dsimp only
  refine .ite (fun _ => ?_) fun _ => .refl _ _
  split
  · exact .refl _ _
  · exact setLink_changes ..

theorem usedChanged_changes (s : State) (id : OwnerId) (n : Nat) :
    ChangesOnly [.link] s (s.usedChanged id n) := by
  unfold State.usedChanged
  split
  · exact .refl _ _
  · exact .ite (fun _ => (composeUsage_changes s).trans (takeSlot_changes _)) fun _ => .refl _ _

theorem seedRng_changes (s : State) (g : Nat) : ChangesOnly [.link] s (s.seedRng g) :=
  setLink_changes ..

theorem recordSend_changes (s : State) : ChangesOnly [.owners] s s.recordSend := by
  unfold State.recordSend
  refine .foldl (fun s e => ?_) _ _
  obtain ⟨id, used⟩ := e
  dsimp only
  split
  · exact .refl _ _
  · exact setOwners_changes ..

/-! ### Snapshot Catalogue and change lists -/

theorem appendCurrent_changes (s : State) (i : Fin 8) (x : Extent) :
    ChangesOnly [.cat, .pool, .port] s (s.appendCurrent i x) := by
  unfold State.appendCurrent
  split
  · exact .refl _ _
  · refine .ite (fun _ => .refl _ _) fun _ => ?_
    dsimp only
    refine .ite (fun _ => ?_) fun _ => ?_
    · exact ((putVol_changes s _ _).mono (by decide)).trans
        ((setPool_changes _ _).mono (by decide))
    · exact (((putVol_changes s _ _).mono (by decide)).trans
        ((setPool_changes _ _).mono (by decide))).trans ((raise_changes _ _ _).mono (by decide))

theorem modifySnap_changes (s : State) (i : Fin 8) (e : Nat) (f : Snapshot → Snapshot) :
    ChangesOnly [.cat] s (s.modifySnap i e f) := setCat_changes ..

theorem takeRef_changes (s : State) (i : Fin 8) (e : Nat) : ChangesOnly [.cat] s (s.takeRef i e) :=
  modifySnap_changes ..

theorem giveRef_changes (s : State) (i : Fin 8) (e : Nat) : ChangesOnly [.cat] s (s.giveRef i e) :=
  modifySnap_changes ..

theorem retainBlocks_changes (s : State) (i : Fin 8) (e v : Nat) (b : Bucket) :
    ChangesOnly [.cat, .port] s (s.retainBlocks i e v b) := by
  unfold State.retainBlocks
  split
  · exact .refl _ _
  · dsimp only
    exact .ite
      (fun _ => ((modifySnap_changes s _ _ _).mono (by decide)).trans
        ((raise_changes _ _ _).mono (by decide)))
      fun _ => (modifySnap_changes s _ _ _).mono (by decide)

theorem deletionStep_changes (s : State) (i : Fin 8) (v : Volume) (x : Snapshot) :
    ChangesOnly [.cat, .port] s (s.deletionStep i v x).2 := by
  unfold State.deletionStep
  dsimp only
  refine ChangesOnly.trans ?_ ((modifyVol_changes _ _ _).mono (by decide))
  refine ChangesOnly.trans ?_ ((setCat_changes _ _).mono (by decide))
  exact .foldl (fun s b => retainBlocks_changes s _ _ _ b) _ _

theorem evaluateRounds_changes (fuel : Nat) (i : Fin 8) (s : State) :
    ChangesOnly [.cat, .port] s (evaluateRounds fuel i s) := by
  induction fuel generalizing s with
  | zero => exact .refl _ _
  | succ n ih =>
    unfold evaluateRounds
    split
    · exact .refl _ _
    · refine .ite (fun _ => (putVol_changes ..).mono (by decide)) fun _ => ?_
      split
      · dsimp only
        refine .ite (fun _ => (putVol_changes ..).mono (by decide)) fun _ => ?_
        exact (((putVol_changes s _ _).mono (by decide)).trans
          ((raise_changes _ _ _).mono (by decide))).trans ((flushEvent_changes _).mono (by decide))
      · refine .ite (fun _ => ?_) fun _ => (putVol_changes ..).mono (by decide)
        dsimp only
        refine ChangesOnly.trans ?_ (ih _)
        refine ChangesOnly.trans ?_ ((flushEvent_changes _).mono (by decide))
        exact (deletionStep_changes s i _ _).trans ((notice_changes _ _ _).mono (by decide))

theorem evaluate_changes (s : State) (i : Fin 8) : ChangesOnly [.cat, .port] s (s.evaluate i) :=
  evaluateRounds_changes ..

theorem evaluateIfOver_changes (s : State) (i : Fin 8) :
    ChangesOnly [.cat, .port] s (s.evaluateIfOver i) := by
  unfold State.evaluateIfOver
  split
  · exact .refl _ _
  · exact .ite (fun _ => evaluate_changes ..) fun _ => .refl _ _

theorem evaluateFlagged_changes (s : State) (i : Fin 8) :
    ChangesOnly [.cat, .port] s (s.evaluateFlagged i) := by
  unfold State.evaluateFlagged
  split
  · exact .refl _ _
  · exact .ite (fun _ => evaluate_changes ..) fun _ => .refl _ _

theorem evaluateWaiting_changes (s : State) : ChangesOnly [.cat, .port] s s.evaluateWaiting := by
  unfold State.evaluateWaiting
  exact .ite (fun _ => .foldl evaluateFlagged_changes _ _) fun _ => .refl _ _

/-! ### Duplication Scheduler -/

/-- What the Duplication Scheduler and its tickets can change. -/
abbrev night : List Block := [.cat, .pool, .dup, .port]

theorem answerTicket_changes (s : State) (k : Fin 16) (x : Ticket) (ok : Bool) :
    ChangesOnly night s (s.answerTicket k x ok) := by
  unfold State.answerTicket
  refine ((putTicket_changes s k none).mono (by decide)).trans ?_
  dsimp only
  split
  · exact (setPool_changes ..).mono (by decide)
  · rename_i v _
    have moved : ChangesOnly night (s.putTicket k none) (((s.putTicket k none).putVol x.slot
        (some (v.answered x.work ok ((s.putTicket k none).profileOf v).retryLimit))).setPool
        ((s.putTicket k none).poolFree +
          if ok then x.work.entries else (giveBack x.work v.send).2)) :=
      ((putVol_changes _ _ _).mono (by decide)).trans ((setPool_changes _ _).mono (by decide))
    exact .ite (fun _ => moved.trans ((raise_changes ..).mono (by decide))) fun _ => moved

theorem issueTicket_changes (s : State) (i : Fin 8) (v : Volume) :
    ChangesOnly night s (s.issueTicket i v) := by
  unfold State.issueTicket
  split
  · exact .refl _ _
  · dsimp only
    exact (((((putVol_changes s _ _).mono (by decide)).trans
      ((setPool_changes _ _).mono (by decide))).trans
      ((putTicket_changes _ _ _).mono (by decide))).trans
      ((setDup_changes _ _).mono (by decide))).trans ((notice_changes _ _ _).mono (by decide))

theorem issueRounds_changes (fuel : Nat) (s : State) : ChangesOnly night s (issueRounds fuel s) := by
  induction fuel generalizing s with
  | zero => exact .refl _ _
  | succ n ih =>
    unfold issueRounds
    split
    · exact .refl _ _
    · exact .ite (fun _ => (issueTicket_changes ..).trans (ih _)) fun _ => .refl _ _

theorem issuePass_changes (s : State) : ChangesOnly night s s.issuePass := issueRounds_changes ..

theorem issueIfFreed_changes (s : State) (n : Nat) : ChangesOnly night s (s.issueIfFreed n) := by
  unfold State.issueIfFreed
  exact .ite (fun _ => issuePass_changes s) fun _ => .refl _ _

theorem closeIfDone_changes (s : State) : ChangesOnly [.cat, .dup, .port] s s.closeIfDone := by
  unfold State.closeIfDone
  refine .ite (fun _ => ?_) fun _ => .refl _ _
  refine ((setDup_changes s _).mono (by decide)).trans (.foldl (fun s i => ?_) _ _)
  split
  · exact .refl _ _
  · refine .ite (fun _ => ?_) fun _ => .ite (fun _ => ?_) fun _ => .refl _ _
    · exact ((putVol_changes s _ _).mono (by decide)).trans ((raise_changes _ _ _).mono (by decide))
    · exact ((putVol_changes s _ _).mono (by decide)).trans ((raise_changes _ _ _).mono (by decide))

theorem openWindow_changes (s : State) : ChangesOnly [.cat, .dup] s s.openWindow := by
  unfold State.openWindow
  dsimp only
  refine (((setDup_changes s _).mono (by decide)).trans (.foldl (fun s i => ?_) _ _)).trans
    ((setDup_changes _ _).mono (by decide))
  exact (modifyVol_changes ..).mono (by decide)

theorem startClosing_changes (s : State) : ChangesOnly [.cat, .dup, .port] s s.startClosing :=
  ((setDup_changes s _).mono (by decide)).trans (closeIfDone_changes _)

theorem minuteChanged_changes (s : State) (m : Nat) :
    ChangesOnly [.cat, .dup, .port] s (s.minuteChanged m) := by
  unfold State.minuteChanged
  refine .ite (fun _ => ?_) fun _ => .refl _ _
  split
  · exact .ite (fun _ => (openWindow_changes s).mono (by decide)) fun _ => .refl _ _
  · exact .ite (fun _ => .refl _ _) fun _ => startClosing_changes s
  · exact .refl _ _

theorem placeCut_changes (s : State) (i : Fin 8) (v : Volume) :
    ChangesOnly [.cat, .port] s (s.placeCut i v) :=
  ((putVol_changes s _ _).mono (by decide)).trans ((notice_changes _ _ _).mono (by decide))

theorem placeCuts_changes (s : State) : ChangesOnly [.cat, .port] s s.placeCuts := by
  unfold State.placeCuts
  refine .foldl (fun s i => ?_) _ _
  split
  · exact .refl _ _
  · exact .ite (fun _ => placeCut_changes ..) fun _ => .refl _ _

theorem afterMinute_changes (s : State) : ChangesOnly night s s.afterMinute :=
  (((flushEvent_changes s).mono (by decide)).trans ((placeCuts_changes _).mono (by decide))).trans
    (issuePass_changes _)

theorem testEnd_changes (s : State) (i : Fin 8) : ChangesOnly [.cat] s (s.testEnd i) := by
  unfold State.testEnd
  split
  · exact .refl _ _
  · exact .ite (fun _ => putVol_changes ..) fun _ => .refl _ _

theorem dupEndStep_changes (s : State) (i : Fin 8) :
    ChangesOnly [.cat, .dup, .port] s (s.dupEndStep i) := by
  unfold State.dupEndStep
  split
  · exact .refl _ _
  · refine .ite (fun _ => ?_) fun _ => .refl _ _
    dsimp only
    refine ChangesOnly.trans ?_ ((flushEvent_changes _).mono (by decide))
    refine ChangesOnly.trans ?_ (closeIfDone_changes _)
    refine ChangesOnly.trans ?_ ((evaluateIfOver_changes _ _).mono (by decide))
    refine ChangesOnly.trans ?_ ((notice_changes _ _ _).mono (by decide))
    refine ChangesOnly.trans ?_ ((putVol_changes _ _ _).mono (by decide))
    split
    · exact (giveRef_changes ..).mono (by decide)
    · exact .refl _ _

theorem recomputeShare_changes (s : State) : ChangesOnly [.dup] s s.recomputeShare :=
  setDup_changes ..

theorem riskStep_changes (n : Nat) (acc : Nat × State) (x : Fin 8 × Option Nat) :
    ChangesOnly [.cat, .port] acc.2 (riskStep n acc x).2 := by
  unfold riskStep
  split
  · split
    · exact ((putVol_changes _ _ _).mono (by decide)).trans ((raise_changes _ _ _).mono (by decide))
    · exact .refl _ _
  · exact .refl _ _

theorem testAtRisk_changes (s : State) : ChangesOnly [.cat, .port] s s.testAtRisk := by
  have fold : ∀ (n : Nat) (xs : List (Fin 8 × Option Nat)) (acc : Nat × State),
      ChangesOnly [.cat, .port] acc.2 (xs.foldl (riskStep n) acc).2 := by
    intro n xs
    induction xs with
    | nil => intro acc; exact .refl _ _
    | cons x xs ih => intro acc; exact (riskStep_changes n acc x).trans (ih _)
  unfold State.testAtRisk
  exact .ite (fun _ => fold _ _ (s.now, s)) fun _ => .refl _ _

theorem restoreStarts_changes (s : State) : ChangesOnly [.dup] s s.restoreStarts := by
  unfold State.restoreStarts
  dsimp only
  refine .ite (fun _ => ?_) fun _ => setDup_changes ..
  split
  · exact .ite (fun _ => setDup_changes ..) fun _ => setDup_changes ..
  · exact setDup_changes ..

theorem restoreEnds_changes (s : State) : ChangesOnly night s s.restoreEnds := by
  unfold State.restoreEnds
  dsimp only
  exact .ite (fun _ => ((setDup_changes s _).mono (by decide)).trans (issuePass_changes _))
    fun _ => (setDup_changes ..).mono (by decide)

/-! ### Restore Controller -/

theorem placeCopy_changes (s : State) (c : Fin 4) (x : Context) :
    ChangesOnly [.rsc, .port] s (s.placeCopy c x) := by
  unfold State.placeCopy
  dsimp only
  split
  · exact .refl _ _
  · exact (((putContext_changes s _ _).mono (by decide)).trans
      ((setRsc_changes _ _).mono (by decide))).trans ((notice_changes _ _ _).mono (by decide))

theorem copyRounds_changes (fuel : Nat) (s : State) :
    ChangesOnly [.rsc, .port] s (copyRounds fuel s) := by
  induction fuel generalizing s with
  | zero => exact .refl _ _
  | succ n ih =>
    unfold copyRounds
    split
    · exact .refl _ _
    · exact .ite (fun _ => (placeCopy_changes ..).trans (ih _)) fun _ => .refl _ _

theorem placeCopies_changes (s : State) : ChangesOnly [.rsc, .port] s s.placeCopies :=
  copyRounds_changes ..

theorem freeContext_changes (s : State) (c : Fin 4) (x : Context) :
    ChangesOnly [.rsc, .cat] s (s.freeContext c x) :=
  ((putContext_changes s _ _).mono (by decide)).trans ((giveRef_changes _ _ _).mono (by decide))

theorem testJobEnd_changes (s : State) (c : Fin 4) : ChangesOnly [.rsc] s (s.testJobEnd c) :=
  modifyContext_changes ..

/-- What the end of a job can change. -/
abbrev jobEnd : List Block := [.owners, .adm, .rsc, .cat, .pool, .dup, .port]

theorem restoreEndStep_changes (s : State) (c : Fin 4) :
    ChangesOnly jobEnd s (s.restoreEndStep c) := by
  unfold State.restoreEndStep
  split
  · exact .refl _ _
  · refine .ite (fun _ => ?_) fun _ => .refl _ _
    dsimp only
    refine ChangesOnly.trans ?_ ((flushEvent_changes _).mono (by decide))
    refine ChangesOnly.trans ?_ ((evaluateIfOver_changes _ _).mono (by decide))
    refine ChangesOnly.trans ?_ ((restoreEnds_changes _).mono (by decide))
    refine ChangesOnly.trans ?_ ((notice_changes _ _ _).mono (by decide))
    refine ChangesOnly.trans ?_ ((freeContext_changes _ _ _).mono (by decide))
    split
    · exact (removeEntry_changes ..).mono (by decide)
    · exact .refl _ _

theorem assemblyTimeout_changes (s : State) (c : Fin 4) :
    ChangesOnly [.rsc, .cat, .port] s (s.assemblyTimeout c) := by
  unfold State.assemblyTimeout
  split
  · exact .refl _ _
  · refine .ite (fun _ => ?_) fun _ => .refl _ _
    dsimp only
    refine ChangesOnly.trans ?_ ((flushEvent_changes _).mono (by decide))
    refine ChangesOnly.trans ?_ ((evaluateIfOver_changes _ _).mono (by decide))
    exact ((freeContext_changes s _ _).mono (by decide)).trans
      ((notice_changes _ _ _).mono (by decide))

theorem roomArrives_changes (s : State) : ChangesOnly jobEnd s s.roomArrives := by
  unfold State.roomArrives
  dsimp only
  refine ChangesOnly.trans ?_ ((issuePass_changes _).mono (by decide))
  refine ChangesOnly.trans ?_ ((placeCopies_changes _).mono (by decide))
  refine ChangesOnly.trans ?_ ((placeCuts_changes _).mono (by decide))
  refine ChangesOnly.trans ?_ ((evaluateWaiting_changes _).mono (by decide))
  refine ChangesOnly.trans ?_ (.foldl (fun s i => (dupEndStep_changes s i).mono (by decide)) _ _)
  refine ChangesOnly.trans ((flushEvent_changes s).mono (by decide)) ?_
  exact .foldl (fun s c => ((assemblyTimeout_changes s c).mono (by decide)).trans
    (restoreEndStep_changes _ _)) _ _

end Sys2Proof.Safety
end

