-- ==== Sys2Proof/Laws/Grows.lean ====
section
/-! SUPPORT. What each shared operation does to the queues of the port: the completion queue grows at its tail by
notices alone, and the request queue, the request-dropped flag and the bytes shifted out stay. A command's own
completion stands in front of what its follow-ups place. -/

namespace Sys2Proof.Safety

open Sys2Proof.Machine

variable {s t u : State}

/-- The completion queue has grown by notices alone, and the rest of the port's queues stands. -/
def Grows (s t : State) : Prop :=
  t.port.requests = s.port.requests ∧ t.port.dropped = s.port.dropped ∧
    t.port.shiftedOut = s.port.shiftedOut ∧
    ∃ more : List Record, t.port.completions = s.port.completions ++ more ∧
      ∀ x ∈ more, x.type = .notice

/-! ### The calculus -/

theorem Grows.refl (s : State) : Grows s s := ⟨rfl, rfl, rfl, [], by simp⟩

theorem Grows.trans (h : Grows s t) (k : Grows t u) : Grows s u := by
  obtain ⟨h1, h2, h3, m, h4, h5⟩ := h
  obtain ⟨k1, k2, k3, n, k4, k5⟩ := k
  refine ⟨k1.trans h1, k2.trans h2, k3.trans h3, m ++ n, by rw [k4, h4, List.append_assoc], ?_⟩
  intro x hx
  rcases List.mem_append.mp hx with hm | hn
  · exact h5 x hm
  · exact k5 x hn

theorem Grows.of_port_eq (h : t.port = s.port) : Grows s t := by
  refine ⟨by rw [h], by rw [h], by rw [h], [], by rw [h]; simp, by simp⟩

theorem Grows.foldl {α : Type} {f : State → α → State} (h : ∀ s a, Grows s (f s a)) (xs : List α)
    (s : State) : Grows s (xs.foldl f s) := by
  induction xs generalizing s with
  | nil => exact .refl s
  | cons a as ih => exact (h s a).trans (ih _)

theorem Grows.ite {p : Prop} [Decidable p] {a b : State} (h : p → Grows s a) (k : ¬p → Grows s b) :
    Grows s (if p then a else b) := by
  by_cases hp : p
  · rw [if_pos hp]; exact h hp
  · rw [if_neg hp]; exact k hp

/-- A record placed, and notices behind it: the completion stands in front. -/
theorem Grows.places {r : Record} (h : Grows (s.place r) t) : Places s t r := by
  obtain ⟨-, -, -, m, h4, h5⟩ := h
  exact ⟨m, by rw [h4]; simp [State.place], h5⟩

/-- What an answer and its follow-ups leave of a request that was taken. -/
theorem Grows.answered {r : Record} (h : Grows (s.dropHead.place r) t) : Answered s t r :=
  ⟨h.1, h.places⟩

theorem setTime_grows (s : State) (x : Timebase) : Grows s (s.setTime x) := .of_port_eq rfl
theorem setOwners_grows (s : State) (x : List Owner) : Grows s (s.setOwners x) := .of_port_eq rfl
theorem setAdm_grows (s : State) (x : Admission) : Grows s (s.setAdm x) := .of_port_eq rfl
theorem setLink_grows (s : State) (x : Link) : Grows s (s.setLink x) := .of_port_eq rfl
theorem setCat_grows (s : State) (x : Catalogue) : Grows s (s.setCat x) := .of_port_eq rfl
theorem setPool_grows (s : State) (x : Nat) : Grows s (s.setPool x) := .of_port_eq rfl
theorem setRsc_grows (s : State) (x : Restore) : Grows s (s.setRsc x) := .of_port_eq rfl
theorem setDup_grows (s : State) (x : Duplication) : Grows s (s.setDup x) := .of_port_eq rfl
theorem setPart_grows (s : State) (x : PartState) : Grows s (s.setPart x) := .of_port_eq rfl
theorem putVol_grows (s : State) (i : Fin 8) (v : Option Volume) : Grows s (s.putVol i v) :=
  .of_port_eq rfl
theorem putContext_grows (s : State) (c : Fin 4) (x : Option Context) : Grows s (s.putContext c x) :=
  .of_port_eq rfl
theorem putTicket_grows (s : State) (t : Fin 16) (x : Option Ticket) : Grows s (s.putTicket t x) :=
  .of_port_eq rfl
theorem putPeer_grows (s : State) (i : Fin 16) (p : Peer) : Grows s (s.putPeer i p) := .of_port_eq rfl

theorem modifyVol_grows (s : State) (i : Fin 8) (f : Volume → Volume) : Grows s (s.modifyVol i f) :=
  .of_port_eq ((modifyVol_changes s i f).2 .port (by decide))
theorem modifyContext_grows (s : State) (c : Fin 4) (f : Context → Context) :
    Grows s (s.modifyContext c f) :=
  .of_port_eq ((modifyContext_changes s c f).2 .port (by decide))

/-! ### The server port -/

theorem notice_grows (s : State) (n : Nat) (b : Body) : Grows s (s.notice n b) :=
  ⟨rfl, rfl, rfl, _, rfl, by simp⟩

theorem raise_grows (s : State) (k : EventKind) (n : Nat) : Grows s (s.raise k n) :=
  ⟨rfl, rfl, rfl, [], by simp [State.raise], by simp⟩

theorem flushEvent_grows (s : State) : Grows s s.flushEvent := by
  unfold State.flushEvent
  exact .ite (fun _ => ⟨rfl, rfl, rfl, _, rfl, by simp⟩) fun _ => .refl _

/-- An answer is its completion and what is flushed behind it. -/
theorem answerPart_grows (s : State) (kind tag part parts : Nat) (st : Status) (b : Body) :
    Grows (s.place { type := .completion, number := kind, status := st, tag, part, parts, body := b })
      (s.answerPart kind tag part parts st b) := flushEvent_grows _

theorem answer_grows (s : State) (kind tag : Nat) (st : Status) (b : Body) :
    Grows (s.place (reply kind tag st b)) (s.answer kind tag st b) := flushEvent_grows _

/-! ### Owner Table and Admission Unit -/

theorem touchOwner_grows (s : State) (id : OwnerId) (f : Owner → Owner) :
    Grows s (s.touchOwner id f) := by
  unfold State.touchOwner
  split
  · exact .refl _
  · exact setOwners_grows ..

theorem addOwner_grows (s : State) (o : Owner) (h : s.addOwner o = some t) :
    Grows s t := by
  unfold State.addOwner at h
  split at h
  · cases h; exact setOwners_grows ..
  · split at h
    · cases h
    · cases h; exact setOwners_grows ..

theorem ensureOwner_grows (s : State) (id : OwnerId) (c : Fin 8)
    (h : s.ensureOwner id c = some t) : Grows s t := by
  unfold State.ensureOwner at h
  split at h
  · cases h; exact .refl _
  · exact addOwner_grows s _ h

theorem usageEntry_grows (s : State) (i : Fin 16) (g : Nat) (e : OwnerId × Nat) :
    Grows s (s.usageEntry i g e) := by
  unfold State.usageEntry
  refine .ite (fun _ => .refl _) fun _ => ?_
  split
  · exact .refl _
  · exact .ite
      (fun _ => ((setOwners_grows s _)).trans
        ((raise_grows _ _ _)))
      fun _ => (setOwners_grows s _)

theorem removeEntry_grows (s : State) (e : Reservation) (f : Owner → Owner) :
    Grows s (s.removeEntry e f) :=
  ((setAdm_grows s _)).trans ((touchOwner_grows _ _ _))

theorem grant_grows (s : State) (id : OwnerId) (c : Fin 8) (n v : Nat) (o : Origin)
    {e : Reservation} (h : s.grant id c n v o = some (e, t)) :
    Grows s t := by
  unfold State.grant at h
  dsimp only at h
  split at h
  · split at h
    · cases h
    · rename_i w hw
      cases h
      exact ((ensureOwner_grows s _ _ hw)).trans
        (((setAdm_grows w _)).trans
          ((touchOwner_grows _ _ _)))
  · cases h

theorem admit_grows (s : State) (id : OwnerId) (c : Fin 8) (n v : Nat) (o : Origin) :
    Grows s (s.admitBlocks id c n v o).2 := by
  unfold State.admitBlocks
  have ht : Grows s (s.touchOwner id fun o => o) :=
    (touchOwner_grows s id _)
  dsimp only
  split
  · split
    · exact ht
    · rename_i hg
      exact ht.trans (grant_grows _ _ _ _ _ _ hg)
  · exact ht

/-! ### Link Controller -/

theorem takeSlot_grows (s : State) : Grows s s.takeSlot := by
  unfold State.takeSlot
  dsimp only
  refine .ite (fun _ => .ite (fun _ => setLink_grows ..) fun _ => ?_) fun _ => .refl _
  exact .ite (fun _ => setLink_grows ..) fun _ => .refl _

theorem fillAnnounce_grows (s : State) : Grows s s.fillAnnounce := by
  unfold State.fillAnnounce
  dsimp only
  refine .ite (fun _ => ?_) fun _ => .refl _
  split
  · exact setLink_grows ..
  · exact .refl _
  · exact .ite (fun _ => setLink_grows ..) fun _ => .refl _

theorem composeUsage_grows (s : State) : Grows s s.composeUsage := by
  unfold State.composeUsage
  dsimp only
  refine .ite (fun _ => ?_) fun _ => .refl _
  split
  · exact .refl _
  · exact setLink_grows ..

theorem usedChanged_grows (s : State) (id : OwnerId) (n : Nat) :
    Grows s (s.usedChanged id n) := by
  unfold State.usedChanged
  split
  · exact .refl _
  · exact .ite (fun _ => (composeUsage_grows s).trans (takeSlot_grows _)) fun _ => .refl _

theorem seedRng_grows (s : State) (g : Nat) : Grows s (s.seedRng g) :=
  setLink_grows ..

theorem recordSend_grows (s : State) : Grows s s.recordSend := by
  unfold State.recordSend
  refine .foldl (fun s e => ?_) _ _
  obtain ⟨id, used⟩ := e
  dsimp only
  split
  · exact .refl _
  · exact setOwners_grows ..

/-! ### Snapshot Catalogue and change lists -/

theorem appendCurrent_grows (s : State) (i : Fin 8) (x : Extent) :
    Grows s (s.appendCurrent i x) := by
  unfold State.appendCurrent
  split
  · exact .refl _
  · refine .ite (fun _ => .refl _) fun _ => ?_
    dsimp only
    refine .ite (fun _ => ?_) fun _ => ?_
    · exact ((putVol_grows s _ _)).trans
        ((setPool_grows _ _))
    · exact (((putVol_grows s _ _)).trans
        ((setPool_grows _ _))).trans ((raise_grows _ _ _))

theorem modifySnap_grows (s : State) (i : Fin 8) (e : Nat) (f : Snapshot → Snapshot) :
    Grows s (s.modifySnap i e f) := setCat_grows ..

theorem takeRef_grows (s : State) (i : Fin 8) (e : Nat) : Grows s (s.takeRef i e) :=
  modifySnap_grows ..

theorem giveRef_grows (s : State) (i : Fin 8) (e : Nat) : Grows s (s.giveRef i e) :=
  modifySnap_grows ..

theorem retainBlocks_grows (s : State) (i : Fin 8) (e v : Nat) (b : Bucket) :
    Grows s (s.retainBlocks i e v b) := by
  unfold State.retainBlocks
  split
  · exact .refl _
  · dsimp only
    exact .ite
      (fun _ => ((modifySnap_grows s _ _ _)).trans
        ((raise_grows _ _ _)))
      fun _ => (modifySnap_grows s _ _ _)

theorem deletionStep_grows (s : State) (i : Fin 8) (v : Volume) (x : Snapshot) :
    Grows s (s.deletionStep i v x).2 := by
  unfold State.deletionStep
  dsimp only
  refine Grows.trans ?_ ((modifyVol_grows _ _ _))
  refine Grows.trans ?_ ((setCat_grows _ _))
  exact .foldl (fun s b => retainBlocks_grows s _ _ _ b) _ _

theorem evaluateRounds_grows (fuel : Nat) (i : Fin 8) (s : State) :
    Grows s (evaluateRounds fuel i s) := by
  induction fuel generalizing s with
  | zero => exact .refl _
  | succ n ih =>
    unfold evaluateRounds
    split
    · exact .refl _
    · refine .ite (fun _ => (putVol_grows ..)) fun _ => ?_
      split
      · dsimp only
        refine .ite (fun _ => (putVol_grows ..)) fun _ => ?_
        exact (((putVol_grows s _ _)).trans
          ((raise_grows _ _ _))).trans ((flushEvent_grows _))
      · refine .ite (fun _ => ?_) fun _ => (putVol_grows ..)
        dsimp only
        refine Grows.trans ?_ (ih _)
        refine Grows.trans ?_ ((flushEvent_grows _))
        exact (deletionStep_grows s i _ _).trans ((notice_grows _ _ _))

theorem evaluate_grows (s : State) (i : Fin 8) : Grows s (s.evaluate i) :=
  evaluateRounds_grows ..

theorem evaluateIfOver_grows (s : State) (i : Fin 8) :
    Grows s (s.evaluateIfOver i) := by
  unfold State.evaluateIfOver
  split
  · exact .refl _
  · exact .ite (fun _ => evaluate_grows ..) fun _ => .refl _

theorem evaluateFlagged_grows (s : State) (i : Fin 8) : Grows s (s.evaluateFlagged i) := by
  unfold State.evaluateFlagged
  split
  · exact .refl _
  · exact .ite (fun _ => evaluate_grows ..) fun _ => .refl _

theorem evaluateWaiting_grows (s : State) : Grows s s.evaluateWaiting := by
  unfold State.evaluateWaiting
  exact .ite (fun _ => .foldl evaluateFlagged_grows _ _) fun _ => .refl _

/-! ### Duplication Scheduler -/

theorem issueTicket_grows (s : State) (i : Fin 8) (v : Volume) :
    Grows s (s.issueTicket i v) := by
  unfold State.issueTicket
  split
  · exact .refl _
  · dsimp only
    exact (((((putVol_grows s _ _)).trans
      ((setPool_grows _ _))).trans
      ((putTicket_grows _ _ _))).trans
      ((setDup_grows _ _))).trans ((notice_grows _ _ _))

theorem issueRounds_grows (fuel : Nat) (s : State) : Grows s (issueRounds fuel s) := by
  induction fuel generalizing s with
  | zero => exact .refl _
  | succ n ih =>
    unfold issueRounds
    split
    · exact .refl _
    · exact .ite (fun _ => (issueTicket_grows ..).trans (ih _)) fun _ => .refl _

theorem issuePass_grows (s : State) : Grows s s.issuePass := issueRounds_grows ..

theorem issueIfFreed_grows (s : State) (n : Nat) : Grows s (s.issueIfFreed n) := by
  unfold State.issueIfFreed
  exact .ite (fun _ => issuePass_grows s) fun _ => .refl _

theorem closeIfDone_grows (s : State) : Grows s s.closeIfDone := by
  unfold State.closeIfDone
  refine .ite (fun _ => ?_) fun _ => .refl _
  refine ((setDup_grows s _)).trans (.foldl (fun s i => ?_) _ _)
  split
  · exact .refl _
  · refine .ite (fun _ => ?_) fun _ => .ite (fun _ => ?_) fun _ => .refl _
    · exact ((putVol_grows s _ _)).trans ((raise_grows _ _ _))
    · exact ((putVol_grows s _ _)).trans ((raise_grows _ _ _))

theorem openWindow_grows (s : State) : Grows s s.openWindow := by
  unfold State.openWindow
  dsimp only
  refine (((setDup_grows s _)).trans (.foldl (fun s i => ?_) _ _)).trans
    ((setDup_grows _ _))
  exact (modifyVol_grows ..)

theorem startClosing_grows (s : State) : Grows s s.startClosing :=
  ((setDup_grows s _)).trans (closeIfDone_grows _)

theorem minuteChanged_grows (s : State) (m : Nat) :
    Grows s (s.minuteChanged m) := by
  unfold State.minuteChanged
  refine .ite (fun _ => ?_) fun _ => .refl _
  split
  · exact .ite (fun _ => (openWindow_grows s)) fun _ => .refl _
  · exact .ite (fun _ => .refl _) fun _ => startClosing_grows s
  · exact .refl _

theorem placeCut_grows (s : State) (i : Fin 8) (v : Volume) :
    Grows s (s.placeCut i v) :=
  ((putVol_grows s _ _)).trans ((notice_grows _ _ _))

theorem placeCuts_grows (s : State) : Grows s s.placeCuts := by
  unfold State.placeCuts
  refine .foldl (fun s i => ?_) _ _
  split
  · exact .refl _
  · exact .ite (fun _ => placeCut_grows ..) fun _ => .refl _

theorem afterMinute_grows (s : State) : Grows s s.afterMinute :=
  (((flushEvent_grows s)).trans ((placeCuts_grows _))).trans
    (issuePass_grows _)

theorem testEnd_grows (s : State) (i : Fin 8) : Grows s (s.testEnd i) := by
  unfold State.testEnd
  split
  · exact .refl _
  · exact .ite (fun _ => putVol_grows ..) fun _ => .refl _

theorem dupEndStep_grows (s : State) (i : Fin 8) :
    Grows s (s.dupEndStep i) := by
  unfold State.dupEndStep
  split
  · exact .refl _
  · refine .ite (fun _ => ?_) fun _ => .refl _
    dsimp only
    refine Grows.trans ?_ ((flushEvent_grows _))
    refine Grows.trans ?_ (closeIfDone_grows _)
    refine Grows.trans ?_ ((evaluateIfOver_grows _ _))
    refine Grows.trans ?_ ((notice_grows _ _ _))
    refine Grows.trans ?_ ((putVol_grows _ _ _))
    split
    · exact (giveRef_grows ..)
    · exact .refl _

theorem recomputeShare_grows (s : State) : Grows s s.recomputeShare :=
  setDup_grows ..

theorem riskStep_grows (n : Nat) (acc : Nat × State) (x : Fin 8 × Option Nat) :
    Grows acc.2 (riskStep n acc x).2 := by
  unfold riskStep
  split
  · split
    · exact ((putVol_grows _ _ _)).trans ((raise_grows _ _ _))
    · exact .refl _
  · exact .refl _

theorem testAtRisk_grows (s : State) : Grows s s.testAtRisk := by
  have fold : ∀ (n : Nat) (xs : List (Fin 8 × Option Nat)) (acc : Nat × State),
      Grows acc.2 (xs.foldl (riskStep n) acc).2 := by
    intro n xs
    induction xs with
    | nil => intro acc; exact .refl _
    | cons x xs ih => intro acc; exact (riskStep_grows n acc x).trans (ih _)
  unfold State.testAtRisk
  exact .ite (fun _ => fold _ _ (s.now, s)) fun _ => .refl _

theorem restoreStarts_grows (s : State) : Grows s s.restoreStarts := by
  unfold State.restoreStarts
  dsimp only
  refine .ite (fun _ => ?_) fun _ => setDup_grows ..
  split
  · exact .ite (fun _ => setDup_grows ..) fun _ => setDup_grows ..
  · exact setDup_grows ..

theorem restoreEnds_grows (s : State) : Grows s s.restoreEnds := by
  unfold State.restoreEnds
  dsimp only
  exact .ite (fun _ => ((setDup_grows s _)).trans (issuePass_grows _))
    fun _ => (setDup_grows ..)

/-! ### Restore Controller -/

theorem placeCopy_grows (s : State) (c : Fin 4) (x : Context) :
    Grows s (s.placeCopy c x) := by
  unfold State.placeCopy
  dsimp only
  split
  · exact .refl _
  · exact (((putContext_grows s _ _)).trans
      ((setRsc_grows _ _))).trans ((notice_grows _ _ _))

theorem copyRounds_grows (fuel : Nat) (s : State) :
    Grows s (copyRounds fuel s) := by
  induction fuel generalizing s with
  | zero => exact .refl _
  | succ n ih =>
    unfold copyRounds
    split
    · exact .refl _
    · exact .ite (fun _ => (placeCopy_grows ..).trans (ih _)) fun _ => .refl _

theorem placeCopies_grows (s : State) : Grows s s.placeCopies :=
  copyRounds_grows ..

theorem freeContext_grows (s : State) (c : Fin 4) (x : Context) :
    Grows s (s.freeContext c x) :=
  ((putContext_grows s _ _)).trans ((giveRef_grows _ _ _))

theorem testJobEnd_grows (s : State) (c : Fin 4) : Grows s (s.testJobEnd c) :=
  modifyContext_grows ..

theorem restoreEndStep_grows (s : State) (c : Fin 4) :
    Grows s (s.restoreEndStep c) := by
  unfold State.restoreEndStep
  split
  · exact .refl _
  · refine .ite (fun _ => ?_) fun _ => .refl _
    dsimp only
    refine Grows.trans ?_ ((flushEvent_grows _))
    refine Grows.trans ?_ ((evaluateIfOver_grows _ _))
    refine Grows.trans ?_ ((restoreEnds_grows _))
    refine Grows.trans ?_ ((notice_grows _ _ _))
    refine Grows.trans ?_ ((freeContext_grows _ _ _))
    split
    · exact (removeEntry_grows ..)
    · exact .refl _

theorem assemblyTimeout_grows (s : State) (c : Fin 4) :
    Grows s (s.assemblyTimeout c) := by
  unfold State.assemblyTimeout
  split
  · exact .refl _
  · refine .ite (fun _ => ?_) fun _ => .refl _
    dsimp only
    refine Grows.trans ?_ ((flushEvent_grows _))
    refine Grows.trans ?_ ((evaluateIfOver_grows _ _))
    exact ((freeContext_grows s _ _)).trans
      ((notice_grows _ _ _))

theorem roomArrives_grows (s : State) : Grows s s.roomArrives := by
  unfold State.roomArrives
  dsimp only
  refine Grows.trans ?_ ((issuePass_grows _))
  refine Grows.trans ?_ ((placeCopies_grows _))
  refine Grows.trans ?_ ((placeCuts_grows _))
  refine Grows.trans ?_ ((evaluateWaiting_grows _))
  refine Grows.trans ?_ (.foldl (fun s i => (dupEndStep_grows s i)) _ _)
  refine Grows.trans ((flushEvent_grows s)) ?_
  exact .foldl (fun s c => ((assemblyTimeout_grows s c)).trans
    (restoreEndStep_grows _ _)) _ _

end Sys2Proof.Safety
end

