-- ==== Sys2Proof/Laws/Tables.lean ====
section
/-! SUPPORT. What the fixed tables and the Owner Table hold after an update, what the figures of an owner depend on,
and what the event summary holds after a raise. -/

namespace Sys2Proof.Safety

open Sys2Proof.Machine

variable (s : State)

/-! ### Requests -/

/-- A request that can be taken and has the length of its kind goes to its rule (R166). -/
theorem takeRequest_taken {α : Type} {kind : Nat} {parse : Bytes → Option α} {blank : Body}
    {carry : Nat → α → State → State} {s : State} {r : Bytes} {q : α} (h : Takes s kind r)
    (hp : parse r = some q) :
    takeRequest kind parse blank carry s = carry (recordTag r) q s.dropHead := by
  obtain ⟨-, head, room, kindIs, tagged, started, served⟩ := h
  unfold takeRequest
  match hr : s.port.requests, head with
  | x :: rest, head =>
    obtain rfl : x = r := by simpa [hr] using head
    have ht : s.canTake ∧ recordKind x = kind := by
      refine ⟨?_, kindIs⟩
      simp [State.canTake, room, started, Config.completionSlots]
    have hs : servedIn s.dropHead.part kind = true := served
    dsimp only
    rw [if_pos ht, hp]
    dsimp only
    rw [if_neg tagged, if_pos hs]

/-- The outcome of a command that takes such a request. -/
theorem whenReleased_taken {α : Type} {kind : Nat} {parse : Bytes → Option α} {blank : Body}
    {carry : Nat → α → State → State} {s : State} {r : Bytes} {q : α} (h : Takes s kind r)
    (hp : parse r = some q) :
    whenReleased s (takeRequest kind parse blank carry) =
      .next (carry (recordTag r) q s.dropHead) := by
  unfold whenReleased
  rw [h.released, if_neg (by simp), takeRequest_taken h hp]

/-! ### Fixed tables -/

@[simp] theorem vol_putVol_self (i : Fin 8) (x : Option Volume) : (s.putVol i x).vol i = x := by
  simp [State.vol, State.putVol]

theorem vol_putVol_other {i j : Fin 8} (h : j ≠ i) (x : Option Volume) : (s.putVol i x).vol j = s.vol j := by
  have : i.val ≠ j.val := fun e => h (Fin.ext e.symm)
  simp [State.vol, State.putVol, this]

@[simp] theorem context_putContext_self (i : Fin 4) (x : Option Context) : (s.putContext i x).context i = x := by
  simp [State.context, State.putContext]

theorem context_putContext_other {i j : Fin 4} (h : j ≠ i) (x : Option Context) : (s.putContext i x).context j = s.context j := by
  have : i.val ≠ j.val := fun e => h (Fin.ext e.symm)
  simp [State.context, State.putContext, this]

@[simp] theorem ticket_putTicket_self (i : Fin 16) (x : Option Ticket) : (s.putTicket i x).ticket i = x := by
  simp [State.ticket, State.putTicket]

theorem ticket_putTicket_other {i j : Fin 16} (h : j ≠ i) (x : Option Ticket) : (s.putTicket i x).ticket j = s.ticket j := by
  have : i.val ≠ j.val := fun e => h (Fin.ext e.symm)
  simp [State.ticket, State.putTicket, this]

@[simp] theorem peer_putPeer_self (i : Fin 16) (x : Peer) : (s.putPeer i x).peer i = x := by
  simp [State.peer, State.putPeer]

theorem peer_putPeer_other {i j : Fin 16} (h : j ≠ i) (x : Peer) : (s.putPeer i x).peer j = s.peer j := by
  have : i.val ≠ j.val := fun e => h (Fin.ext e.symm)
  simp [State.peer, State.putPeer, this]

/-! ### The Owner Table -/

@[simp] theorem reevaluate_id (o : Owner) : (s.reevaluate o).id = o.id := by
  unfold State.reevaluate
  split
  · split <;> rfl
  · rfl

@[simp] theorem reevaluate_used (o : Owner) : (s.reevaluate o).used = o.used := by
  unfold State.reevaluate
  split
  · split <;> rfl
  · rfl

@[simp] theorem reevaluate_reserved (o : Owner) : (s.reevaluate o).reserved = o.reserved := by
  unfold State.reevaluate
  split
  · split <;> rfl
  · rfl

theorem find_putOwner_self (o : Owner) (l : List Owner) :
    (putOwner o l).find? (·.id == o.id) = some o := by
  induction l with
  | nil => simp [putOwner]
  | cons x xs ih =>
    unfold putOwner
    split
    · simp
    · split
      · simp
      · rename_i h _
        have hx : (x.id == o.id) = false := by simpa using fun e => h e.symm
        simp [hx, ih]

theorem find_putOwner_other {id : OwnerId} (o : Owner) (l : List Owner) (h : id ≠ o.id) :
    (putOwner o l).find? (·.id == id) = l.find? (·.id == id) := by
  have ho : (o.id == id) = false := by simpa using fun e => h e.symm
  induction l with
  | nil => simp [putOwner, ho]
  | cons x xs ih =>
    unfold putOwner
    split
    · rename_i e
      have hx : (x.id == id) = false := by rw [← e]; exact ho
      simp [ho, hx]
    · split
      · simp [ho]
      · simp [List.find?_cons, ih]

/-- A reservation entry put into the table joins it, and the entries keep their sum (R26). -/
theorem putEntry_perm (e : Reservation) (l : List Reservation) : (putEntry e l).Perm (e :: l) := by
  induction l with
  | nil => exact .refl _
  | cons x xs ih =>
    unfold putEntry
    split
    · exact .refl _
    · exact (ih.cons x).trans (.swap e x xs)

theorem mem_putEntry {x e : Reservation} {l : List Reservation} :
    x ∈ putEntry e l ↔ x = e ∨ x ∈ l := by
  rw [(putEntry_perm e l).mem_iff, List.mem_cons]

/-- A bucket joins a retained list with all its blocks, merged or not (R76). -/
theorem insertBucket_total (b : Bucket) (l : List Bucket) :
    bucketTotal (insertBucket b l).1 = b.blocks + bucketTotal l := by
  have add : ∀ l : List Bucket, bucketTotal (addBucket b l) = b.blocks + bucketTotal l := by
    intro l
    induction l with
    | nil => simp [addBucket, bucketTotal]
    | cons x xs ih =>
      unfold addBucket
      simp only [bucketTotal] at ih
      split
      · simp only [bucketTotal, List.map_cons, List.sum_cons]; omega
      · split <;> simp only [bucketTotal, List.map_cons, List.sum_cons]; omega
  rw [← add l]
  unfold insertBucket
  split
  · split
    · rename_i h _
      simp only [h, bucketTotal, List.map_cons, List.sum_cons]; omega
    · rename_i h _; rw [h]
  · rfl

theorem findOwner_id {id : OwnerId} {o : Owner} (h : s.findOwner id = some o) : o.id = id := by
  have := List.find?_some h
  simpa using this

/-- The record of an owner after it was touched. -/
theorem findOwner_touchOwner {id : OwnerId} {o : Owner} {f : Owner → Owner}
    (h : s.findOwner id = some o) (hf : (f o).id = o.id) :
    (s.touchOwner id f).findOwner id = some (s.reevaluate (f o)) := by
  unfold State.touchOwner
  rw [h]
  have e : (s.reevaluate (f o)).id = id := by rw [reevaluate_id, hf, findOwner_id s h]
  have := find_putOwner_self (s.reevaluate (f o)) s.owners
  rw [e] at this
  exact this

/-- Every other record stands. -/
theorem touchOwner_othersKept {id : OwnerId} {f : Owner → Owner} (hf : ∀ o, (f o).id = o.id) :
    OthersKept id s (s.touchOwner id f) := by
  intro x hx
  unfold State.touchOwner
  split
  · rfl
  · rename_i o h
    have e : (s.reevaluate (f o)).id = id := by rw [reevaluate_id, hf, findOwner_id s h]
    exact find_putOwner_other _ _ (by rw [e]; exact hx)

/-! ### The figures of an owner -/

@[simp] theorem effectiveLimits_setOwners (x : List Owner) (o : Owner) : (s.setOwners x).effectiveLimits o = s.effectiveLimits o := rfl
@[simp] theorem quotaState_setOwners (x : List Owner) (o : Owner) : (s.setOwners x).quotaState o = s.quotaState o := rfl
@[simp] theorem reevaluate_setOwners (x : List Owner) (o : Owner) : (s.setOwners x).reevaluate o = s.reevaluate o := rfl
@[simp] theorem effectiveLimits_setAdm (x : Admission) (o : Owner) : (s.setAdm x).effectiveLimits o = s.effectiveLimits o := rfl
@[simp] theorem quotaState_setAdm (x : Admission) (o : Owner) : (s.setAdm x).quotaState o = s.quotaState o := rfl
@[simp] theorem reevaluate_setAdm (x : Admission) (o : Owner) : (s.setAdm x).reevaluate o = s.reevaluate o := rfl
@[simp] theorem effectiveLimits_setPort (x : Port) (o : Owner) : (s.setPort x).effectiveLimits o = s.effectiveLimits o := rfl
@[simp] theorem quotaState_setPort (x : Port) (o : Owner) : (s.setPort x).quotaState o = s.quotaState o := rfl
@[simp] theorem reevaluate_setPort (x : Port) (o : Owner) : (s.setPort x).reevaluate o = s.reevaluate o := rfl
@[simp] theorem effectiveLimits_setCat (x : Catalogue) (o : Owner) : (s.setCat x).effectiveLimits o = s.effectiveLimits o := rfl
@[simp] theorem quotaState_setCat (x : Catalogue) (o : Owner) : (s.setCat x).quotaState o = s.quotaState o := rfl
@[simp] theorem reevaluate_setCat (x : Catalogue) (o : Owner) : (s.setCat x).reevaluate o = s.reevaluate o := rfl
@[simp] theorem effectiveLimits_setPool (x : Nat) (o : Owner) : (s.setPool x).effectiveLimits o = s.effectiveLimits o := rfl
@[simp] theorem quotaState_setPool (x : Nat) (o : Owner) : (s.setPool x).quotaState o = s.quotaState o := rfl
@[simp] theorem reevaluate_setPool (x : Nat) (o : Owner) : (s.setPool x).reevaluate o = s.reevaluate o := rfl
@[simp] theorem effectiveLimits_setRsc (x : Restore) (o : Owner) : (s.setRsc x).effectiveLimits o = s.effectiveLimits o := rfl
@[simp] theorem quotaState_setRsc (x : Restore) (o : Owner) : (s.setRsc x).quotaState o = s.quotaState o := rfl
@[simp] theorem reevaluate_setRsc (x : Restore) (o : Owner) : (s.setRsc x).reevaluate o = s.reevaluate o := rfl
@[simp] theorem effectiveLimits_setDup (x : Duplication) (o : Owner) : (s.setDup x).effectiveLimits o = s.effectiveLimits o := rfl
@[simp] theorem quotaState_setDup (x : Duplication) (o : Owner) : (s.setDup x).quotaState o = s.quotaState o := rfl
@[simp] theorem reevaluate_setDup (x : Duplication) (o : Owner) : (s.setDup x).reevaluate o = s.reevaluate o := rfl

/-! ### The event summary -/

theorem raise_raised (k : EventKind) (n : Nat) : Raised s (s.raise k n) k n := by
  simp [Raised, State.raise]

theorem events_raise_other {k j : EventKind} (h : j.index ≠ k.index) (n : Nat) :
    (s.raise k n).port.events[j.index] = s.port.events[j.index] := by
  have : k.index.val ≠ j.index.val := fun e => h (Fin.ext e.symm)
  simp [State.raise, this]

@[simp] theorem events_flushEvent : s.flushEvent.port.events = s.port.events := by
  unfold State.flushEvent
  split <;> rfl

@[simp] theorem events_notice (n : Nat) (b : Body) : (s.notice n b).port.events = s.port.events := rfl

end Sys2Proof.Safety
end

