-- ==== Sys2Proof/WellFormed.lean ====
section
/-! DEFINITION. Which commands name something that the part has. Every meaning is total all the same:
a command that is not well formed finds nothing to act on, or (CONFIG_CHECK) is read as log 8 says. -/

namespace Sys2Proof

/-- The operand ranges of the commands: an image is 295 bytes long (R181), the reservation table has
slots 0 to 511 (R26), and an owner record's ID is neither 00000000 nor FFFFFFFF (R2, R3). -/
def Instr.wellFormed : Instr → Bool
  | .configCheck image => image.length == Config.imageBytes
  | .leaseExpiry slot => slot < Config.reservationSlots
  | .warmUpEnd owner => owner != 0#32 && owner != 0xFFFFFFFF#32
  | .graceDeadlineExpiry owner => owner != 0#32 && owner != 0xFFFFFFFF#32
  | .powerOnReset _ _ | .status _ | .write _ | .read _ | .reserve | .renew | .cancel | .commit
  | .release | .snapshot | .deleteSnapshot | .expiryWaitingEvaluation | .hold | .pin | .lockHolds
  | .restoreOpen | .restoreItem | .restoreGo | .restoreCancel | .copied | .copyNotice
  | .assemblyDeadline _ | .assemblyTimeout _ | .restoreEndStep _ | .sent | .duplicateNow | .clock
  | .minuteAdvance | .windowClosed | .cutNotice | .cutTimeout _ | .issuePass | .tokenGain
  | .deferralDeadline | .dupEndStep _ | .forgetStation | .forgetSweepVisit | .forgetSweepEnd
  | .inspect | .amend | .events | .eventPendingNotice | .restart | .loadVolume | .loadSnapshot
  | .loadOwner | .loadDone | .announceTimerExpiry | .peerStaleDeadline _ | .transmitAttemptStart
  | .attemptSuccess | .collision | .backoffExpiry | .frameReceived _ | .rstAsserted
  | .kindNumberOutOfRange => true

end Sys2Proof
end

