-- ==== Sys2Proof/Tests/Slice0.lean ====
section
/-! SUPPORT. The model's own tests: the refusals of the well-formedness check, the check values of the two
CRCs, and for every statement of Certificates/Slice0/Obligations.lean a concrete state that meets its
hypotheses, clause by clause, often with what the command leaves there. -/

namespace Sys2Proof.Tests

open Sys2Proof.Machine Sys2Proof.Safety

/-! ### Well-formedness (Instr.wellFormed): one ill-formed command for each check -/

theorem test_short_image_refused : Instr.wellFormed (.configCheck []) = false := by decide
theorem test_image_of_295_bytes_accepted :
    Instr.wellFormed (.configCheck (List.replicate 295 0)) = true := by decide +kernel
theorem test_slot_512_refused : Instr.wellFormed (.leaseExpiry 512) = false := by decide
theorem test_owner_0_refused : Instr.wellFormed (.warmUpEnd 0) = false := by decide
theorem test_owner_ones_refused : Instr.wellFormed (.graceDeadlineExpiry 0xFFFFFFFF) = false := by
  decide
theorem test_boundaries_accepted :
    (Instr.wellFormed (.leaseExpiry 511) && Instr.wellFormed (.warmUpEnd 1) &&
      Instr.wellFormed (.graceDeadlineExpiry 0xFFFFFFFE)) = true := by decide

/-! ### Check values of the CRCs, over the nine digits 1 to 9 -/

def digits : Bytes := [0x31, 0x32, 0x33, 0x34, 0x35, 0x36, 0x37, 0x38, 0x39]

theorem test_crc16_check_value : crc16 digits = 0x29B1 := by decide +kernel
theorem test_crc32_check_value : crc32 digits = 0xCBF43926 := by decide +kernel

/-! ### A small station -/

/-- An image as R181 describes, with class 0 for the owners 10 to 1F. -/
def image : Image :=
  { classes := Vector.replicate 8
      { soft := 100, hard := 200, grace := 1, margin := 20, threshold := 10, lease := 5 },
    windows := Vector.ofFn fun i =>
      { base := 0x10, mask := 0xFFFFFFF0, cls := 0, enable := i == 0 },
    profiles := Vector.replicate 4 { maxBlocks := 64, depth := 2, overhead := 120, retryLimit := 0 },
    uplink := 1000, minShare := 50, stationCap := 800, announceInterval := 2, staleMultiple := 4,
    sweepPeriod := 60, assemblyTimeout := 10, cutTimeout := 10, copyDepth := 1, minProgress := 30,
    windowStart := 60, windowEnd := 300, scanRatio := 20, lockAtStart := .opened }

/-- Owner 11, with 50 blocks used and 10 reserved. -/
def owner : Owner :=
  { id := 0x11, cls := 0, used := 50, reserved := 10, contributions := [], overflow := false,
    override := none, grace := none, graceTaken := false, warmUp := none, lastReported := 50,
    reportTime := some 0, lastCharge := 0 }

/-- Its one reservation entry. -/
def entry : Reservation :=
  { slot := 0, handle := 7, owner := 0x11, blocks := 10, volume := 1, lease := some 900,
    origin := .write, grantTime := 0 }

/-- Volume 1, of 1,000 blocks, with a reserve limit of 50. -/
def volume : Volume :=
  { id := 1, size := 1000, openEpoch := 5, limit := 50, autoExpire := true, dupEnable := true,
    profile := 0, retained := 8, base := none, overReported := false, expiryWaiting := false,
    current := [{ start := 10, length := 5 }], send := .extents [], fullScan := false, dup := .idle,
    sendEpoch := none, failures := 0, cutDeadline := none, cutDue := false, endDue := false,
    atRisk := false, outstanding := 0 }

/-- Its one snapshot, of epoch 4. -/
def snapshot : Snapshot :=
  { slot := 0, epoch := 4, kind := .scheduled, tag := 0, created := 0, hold := false, pin := false,
    refs := 0, buckets := [{ birth := 2, blocks := 8 }] }

/-- A station in SERVING at uptime 1,000 with the image, the owner, the entry, the volume and the
snapshot. -/
def station : State :=
  { State.reset with
    part := .serving, station := 2, image := some image,
    time := { Timebase.reset with uptime := 1000 }, owners := [owner],
    adm := { entries := [entry], handleCounter := 7 },
    link := { Link.reset with state := .active, generation := 9, announceNext := some 2000 },
    cat := { Catalogue.reset with
      vols := Vector.ofFn fun i => if i = 0 then some volume else none,
      snaps := [snapshot], lock := .opened },
    poolFree := 4095 }

/-- The station while its server reloads it. -/
def loading : State := { station with part := .loading }

/-- A restore job of two items of owner 99, whom no decode window of the image names. -/
def job (state : JobState) (item : ItemState) : Context :=
  { state, job := 3, owner := 0x99, tracked := false, sourceSlot := 0, sourceEpoch := 4,
    targetSlot := 0, k := 2,
    items := [{ source := 0, length := 4, birth := 1, target := 0, state := item },
      { source := 8, length := 4, birth := 1, target := 8, state := .pending }],
    deadline := some 1000, handle := none, outstanding := if item = .outstanding then 1 else 0,
    failureSeen := false, endDue := false, timeoutDue := false, charged := 0 }

/-- The station with a context filled. -/
def withJob (x : Context) : State := station.putContext 0 (some x)

/-- The station with its volume changed. -/
def withVolume (f : Volume → Volume) : State := station.putVol 0 (some (f volume))

/-- The volume in the window: OPEN, SENDING to epoch 4, one piece in ticket 1. -/
def sending : State :=
  let s := withVolume fun v =>
    { v with dup := .sending, sendEpoch := some 4, outstanding := 1,
             send := .extents [{ start := 100, length := 64 }] }
  ({ s with
    poolFree := 4093,
    dup := { s.dup with window := .opened, tokens := 64000, ticketCounter := 1 } }).putTicket 0
    (some { number := 1, slot := 0, sendEpoch := 4,
            work := .extents [{ start := 0, length := 9 }], cost := 9 })

/-- A completion queue of n records. -/
def fill (n : Nat) (s : State) : State :=
  s.setPort { s.port with completions := List.replicate n (noticeOf 7 (.eventPending 0 0)) }

/-- A request record: its header and its fields (R179). -/
def request (kind tag : Nat) (fields : List (Nat × Nat)) : Bytes :=
  fieldBytes [(1, 4 + (fieldBytes fields).length), (1, kind), (2, tag)] ++ fieldBytes fields

/-- The state with one request waiting. -/
def ask (s : State) (r : Bytes) : State := s.setPort { s.port with requests := [r] }

/-- The state after a command. -/
def after (c : Instr) (s : State) : State :=
  match exec c s with
  | .next t => t
  | _ => s

/-- The last completion. -/
def last (s : State) : Option Record := s.port.completions.getLast?

/-- Takes as a check that evaluates. -/
def takesNow (s : State) (kind : Nat) (r : Bytes) : Bool :=
  !s.rst && s.port.requests.head? == some r && s.port.completions.length < 64 &&
    recordKind r == kind && recordTag r != 0 && s.part != .configuring && servedIn s.part kind

theorem takes_of {s : State} {kind : Nat} {r : Bytes} (h : takesNow s kind r = true) :
    Takes s kind r := by
  simp only [takesNow, Bool.and_eq_true, Bool.not_eq_true', beq_iff_eq, bne_iff_ne, ne_eq,
    decide_eq_true_eq] at h
  obtain ⟨⟨⟨⟨⟨⟨a, b⟩, c⟩, d⟩, e⟩, f⟩, g⟩ := h
  exact ⟨a, b, c, d, e, f, g⟩

/-! ### The step, the board and the port -/

theorem witness_StepRunsFrontCommand :
    (station.setPending [.rstAsserted, .reserve]).pending = .rstAsserted :: [.reserve] := by
  decide

theorem test_step_runs_front_command :
    step (station.setPending [.rstAsserted, .reserve]) =
      .next ((station.setPending [.reserve]).setRst true) := rfl

theorem witness_EmptyQueueTakesDueStepOrOneMillisecond :
    (State.reset.pending = [] ∧ State.reset.rst = false ∧ dueStep State.reset = none) ∧
    ((State.reset.setRst true).pending = [] ∧ (State.reset.setRst true).rst = true) ∧
    (station.pending = [] ∧ station.rst = false ∧ dueStep station = some (.leaseExpiry 0)) := by
  decide

theorem witness_AssertedResetIgnoresEveryCommand :
    (station.setRst true).rst = true ∧ ∀ n m, Instr.reserve ≠ .powerOnReset n m :=
  ⟨rfl, fun _ _ h => nomatch h⟩

/-- An image with every field 0 but those that must not be, and its CRC. -/
def goodFields : Bytes :=
  List.replicate 112 0 ++ fieldBytes (List.replicate 8 (4, 1)) ++
    fieldBytes (List.replicate 8 (2, 5)) ++ List.replicate 80 0 ++
    fieldBytes (List.replicate 4 (2, 64)) ++ [1, 1, 1, 1] ++ List.replicate 12 0 ++
    fieldBytes [(4, 1), (2, 0), (4, 1), (1, 1), (1, 2), (2, 60), (1, 1), (2, 10), (1, 1), (2, 0),
      (2, 0), (2, 0), (2, 1), (1, 0)]

def goodImage : Bytes := goodFields ++ (numberBytes 4 (crc32 goodFields)).reverse

set_option maxRecDepth 20000 in
theorem witness_ConfigCheckEntersLoadingOrHalted :
    (State.reset.rst = false ∧ State.reset.part = .configuring ∧
      checkImage (readImage goodImage) = none) ∧ checkImage goodImage = none ∧
    checkImage (readImage []) = some .crc ∧ State.reset.port.completions = [] ∧
    State.reset.port.events = Port.reset.events := by
  decide +kernel

set_option maxRecDepth 20000 in
theorem test_range_failure_names_its_field :
    let bad := goodFields.set 274 61
    checkImage (bad ++ (numberBytes 4 (crc32 bad)).reverse) = some (.range 15) := by decide +kernel

theorem witness_StatusAndWriteTransactions :
    station.rst = false ∧
    (fieldAt [4, 22, 0, 1] 0 1 = 4 ∧ 4 ≤ ([4, 22, 0, 1] : Bytes).length ∧
      station.port.requests.length < 64) ∧
    (fieldAt (64 :: List.replicate 63 0) 0 1 = 64) ∧
    (([3, 0, 0] : Bytes) ≠ [] ∧ fieldAt [3, 0, 0] 0 1 < 4) ∧ 64 < fieldAt [65] 0 1 ∧
    ([4, 22, 0] : Bytes).length < fieldAt [4, 22, 0] 0 1 ∧
    64 ≤ (station.setPort { station.port with
      requests := List.replicate 64 [] }).port.requests.length := by
  decide

theorem witness_ReadShiftsOutTheOldestRecord :
    let due := (station.raise .atRisk 1).putVol 0 (some { volume with expiryWaiting := true })
    let waiting := withVolume fun v => { v with expiryWaiting := true, limit := 7 }
    station.rst = false ∧ station.port.completions = [] ∧
    (fill 1 station).port.completions = noticeOf 7 (.eventPending 0 0) :: [] ∧
    ((noticeOf 7 (.eventPending 0 0)).bytes 0).length = 11 ∧
    (fill 57 station).port.completions =
      noticeOf 7 (.eventPending 0 0) :: List.replicate 56 (noticeOf 7 (.eventPending 0 0)) ∧
    55 < (List.replicate 56 (noticeOf 7 (.eventPending 0 0))).length ∧
    (fill 56 due).port.completions.length = 55 + 1 ∧ (readyProducers due).head? = some 7 ∧
    (readyProducers waiting).head? = some 4 ∧
    waiting.vol 0 = some { volume with expiryWaiting := true, limit := 7 } ∧
    Volume.overLimit { volume with expiryWaiting := true, limit := 7 } = true ∧
    (waiting.candidate 0).isSome = true := by
  decide

theorem test_transaction_commands :
    transactionCommand [1, 4, 22] = some (.write [4, 22]) ∧
    transactionCommand [2, 0, 0] = some (.read 2) ∧ transactionCommand [0, 9] = some (.status 1) ∧
    transactionCommand [3] = some (.status 0) ∧ transactionCommand [] = none := by
  decide

theorem test_read_removes_the_record :
    (after (.read 11) (fill 1 station)).port.completions = [] ∧
    (after (.read 10) (fill 1 station)).port.completions = [noticeOf 7 (.eventPending 0 0)] := by
  decide +kernel

theorem witness_RequestsAreCheckedWhenTaken :
    station.port.requests = [] ∧ 64 ≤ (fill 64 station).port.completions.length ∧
    State.reset.part = .configuring ∧
    (let r := request 22 0 [];
      (ask station r).rst = false ∧ (ask station r).port.requests.head? = some r ∧
      (ask station r).port.completions.length < 64 ∧ (ask station r).part ≠ .configuring ∧
      recordTag r = 0) ∧
    (recordKind (request 28 1 []) = 28 ∧ lengthOk (request 28 1 []) = false) ∧
    lengthOk (request 22 1 [(1, 0)]) = false ∧
    (recordTag (request 27 1 [(2, 5)]) ≠ 0 ∧ lengthOk (request 27 1 [(2, 5)]) = true ∧
      servedIn station.part (recordKind (request 27 1 [(2, 5)])) = false) := by
  decide

theorem test_kind_28_is_bad_field :
    last (after .kindNumberOutOfRange (ask station (request 28 1 []))) =
      some (reply 28 1 .badField .none) := by
  decide

/-! ### Admission, commits and releases -/

def reserveRecord (n : Nat) : Bytes := request 1 1 [(4, 0x11), (2, 1), (4, n)]

/-- RESERVE of the n that brings owner 11 just to its hard limit of 200. -/
theorem witness_ReserveGrantsByTheAdmissionTable :
    let s := ask station (reserveRecord 140)
    let u := s.reevaluate owner
    Takes s 1 (reserveRecord 140) ∧
    parseReserve (reserveRecord 140) = some { owner := 0x11, volume := 1, n := 140 } ∧
    invalidOwner 0x11 = false ∧ (s.findVol 1).isSome = true ∧ s.classOf 0x11 = some 0 ∧
    s.findOwner 0x11 = some owner ∧ min (u.view + 140) 4294967295 = (s.effectiveLimits u).hard ∧
    s.passed u.grace = false ∧ u.reserved + 140 ≤ 4294967295 ∧
    lowestFreeSlot 0 s.adm.entries = 1 ∧ s.adm.entries.length ≤ 512 :=
  ⟨takes_of (by decide), by decide⟩

theorem test_reserve_granted_soft :
    let t := after .reserve (ask station (reserveRecord 140))
    last t = some (reply 1 1 .soft (.reserve 8 (some 6000) 60 100 200 .soft)) ∧
    t.findOwner 0x11 = some { owner with
      reserved := 150, lastCharge := 1000, grace := some 61000 } := by
  decide +kernel

theorem witness_RefusedReserveMakesNoEntry :
    let s := ask station (reserveRecord 141)
    let full := { s with adm := { s.adm with
      entries := (List.range 512).map fun i => { entry with slot := i } } }
    let lapsed := s.setOwners [{ owner with used := 91, grace := some 1000 }]
    Takes s 1 (reserveRecord 141) ∧ invalidOwner 0x11 = false ∧
    (s.findVol 1).isSome = true ∧ s.classOf 0x11 = some 0 ∧ s.classOf 0x20 = none ∧
    s.findVol 2 = none ∧ invalidOwner 0xFFFFFFFF = true ∧
    (s.effectiveLimits (s.reevaluate owner)).hard < min (owner.view + 141) 4294967295 ∧
    (lapsed.effectiveLimits { owner with used := 91 }).soft = 100 ∧
    (lapsed.reevaluate { owner with used := 91, grace := some 1000 }).grace = some 1000 ∧
    lapsed.passed (some 1000) = true ∧ 512 ≤ lowestFreeSlot 0 full.adm.entries ∧
    (let heavy := { owner with used := 0, reserved := 4294967200,
                               override := some { soft := 4294967295, hard := 4294967295 } };
      (s.effectiveLimits (s.reevaluate heavy)).hard = 4294967295 ∧
      4294967295 < (s.reevaluate heavy).reserved + 141) :=
  ⟨takes_of (by decide +kernel), by decide +kernel⟩

theorem test_reserve_lapsed_at_its_deadline :
    last (after .reserve (ask (station.setOwners
      [{ owner with used := 91, grace := some 1000 }]) (reserveRecord 1))) =
    some (reply 1 1 .lapsed (.reserve 0 none 101 100 200 .lapsed)) := by
  decide +kernel

def handleRecord (kind handle : Nat) : Bytes := request kind 1 [(2, handle)]

theorem witness_RenewAndCancelOfAnEntry :
    let restore := { entry with origin := .restore 0, lease := none }
    Takes (ask station (handleRecord 2 7)) 2 (handleRecord 2 7) ∧
    Takes (ask station (handleRecord 4 7)) 4 (handleRecord 4 7) ∧
    parseNumber2 (handleRecord 2 7) = some 7 ∧ station.entryByHandle 7 = some entry ∧
    station.entryByHandle 8 = none ∧ entry.origin = .write ∧
    station.findOwner entry.owner = some owner ∧
    (station.setAdm { entries := [restore], handleCounter := 7 }).entryByHandle 7 =
      some restore :=
  ⟨takes_of (by decide), takes_of (by decide), by decide⟩

theorem test_renew_and_cancel :
    (after .renew (ask station (handleRecord 2 7))).adm.entries =
      [{ entry with lease := some 6000 }] ∧
    (after .cancel (ask station (handleRecord 4 7))).findOwner 0x11 =
      some { owner with reserved := 0, lastCharge := 1000 } := by
  decide

def commitRecord (handle length : Nat) : Bytes :=
  request 3 1 [(2, handle), (4, 0x11), (4, 12), (2, 1), (4, 15), (2, length)]

theorem witness_CommitOfAnEntryChargesItsOwner :
    let s := ask station (commitRecord 7 5)
    let q : CommitReq :=
      { handle := 7, owner := 0x11, m := 12, volume := 1, start := 15, length := 5 }
    Takes s 3 (commitRecord 7 5) ∧ parseCommit (commitRecord 7 5) = some q ∧
    s.extentCheck q = none ∧ s.entryByHandle 7 = some entry ∧ entry.owner = q.owner ∧
    q.volume = entry.volume ∧ s.findOwner 0x11 = some owner ∧
    (s.findVol 1 = some (0, volume) ∧ volume.fullScan = false ∧
      (joinExtent volume.current { start := 15, length := 5 }).pieces ≤
        s.poolFree + (joinExtent volume.current { start := 15, length := 5 }).absorbed) ∧
    (joinExtent volume.current { start := 16, length := 5 }).pieces = 1 ∧
    (joinExtent volume.current { start := 16, length := 5 }).absorbed = 0 ∧
    s.extentCheck { q with length := 0 } = none ∧
    (withVolume fun v => { v with fullScan := true, current := [] }).findVol 1 =
      some (0, { volume with fullScan := true, current := [] }) :=
  ⟨takes_of (by decide), by decide⟩

theorem test_commit_exceeds_and_joins :
    let t := after .commit (ask station (commitRecord 7 5))
    last t = some (reply 3 1 .exceeded (.commit 12 62 .normal)) ∧ t.adm.entries = [] ∧
    (t.vol 0).map (·.current) = some [{ start := 10, length := 10 }] := by
  decide +kernel

theorem test_append_overflows_an_empty_pool :
    let t := after .commit (ask (station.setPool 0) (request 3 1
      [(2, 7), (4, 0x11), (4, 12), (2, 1), (4, 16), (2, 5)]))
    (t.vol 0).map (·.current) = some [] ∧ (t.vol 0).map (·.fullScan) = some true ∧
    t.poolFree = 1 := by
  decide

theorem witness_CommitWithoutAnEntry :
    let s := ask station (commitRecord 8 0)
    let q : CommitReq :=
      { handle := 8, owner := 0x11, m := 12, volume := 1, start := 15, length := 0 }
    Takes s 3 (commitRecord 8 0) ∧ parseCommit (commitRecord 8 0) = some q ∧
    s.extentCheck q = none ∧ s.entryByHandle 8 = none ∧ s.classOf 0x11 = some 0 ∧
    (s.findOwner 0x11).isSome = true ∧ s.classOf 0x20 = none :=
  ⟨takes_of (by decide), by decide⟩

def releaseRecord (blocks birth : Nat) : Bytes :=
  request 5 1 [(4, 0x11), (2, 1), (4, blocks), (4, birth), (4, 995), (2, 5)]

/-- The request of that record. -/
def releaseReq (blocks birth : Nat) : ReleaseReq :=
  { owner := 0x11, volume := 1, blocks, birth, start := 995, length := 5 }

/-- Eight buckets, of the births 1 to 8. -/
def eight : List Bucket := (List.range 8).map fun n => { birth := n + 1, blocks := 1 }

theorem witness_ReleaseLowersUsedAndRefusalsChangeNothing :
    let s := ask station (releaseRecord 42 4)
    let q := releaseReq 42 4
    Takes s 5 (releaseRecord 42 4) ∧ parseRelease (releaseRecord 42 4) = some q ∧
    s.findVol 1 = some (0, volume) ∧ q.birth ≤ volume.openEpoch ∧
    q.start + q.length ≤ volume.size ∧ volume.openEpoch < 6 ∧ volume.size < 996 + 5 ∧
    volume.size < 1001 + 0 ∧ s.findVol 2 = none ∧ invalidOwner 0 = true ∧
    s.newest 0 = some 4 ∧ s.findSnap 0 4 = some snapshot ∧ s.findOwner 0x11 = some owner ∧
    volume.retained + 42 ≤ volume.limit ∧ (4 : Nat) < 5 ∧ s.findOwner 0x12 = none ∧
    owner.used < 51 ∧ volume.fullScan = false ∧
    (joinExtent volume.current ⟨995, 5⟩).pieces ≤
      s.poolFree + (joinExtent volume.current ⟨995, 5⟩).absorbed ∧
    (station.setPool 0).poolFree + (joinExtent volume.current ⟨995, 5⟩).absorbed <
      (joinExtent volume.current ⟨995, 5⟩).pieces :=
  ⟨takes_of (by decide), by decide⟩

theorem witness_ReleaseLowersUsedAndRefusalsChangeNothing_buckets :
    eight.Pairwise (fun x y => x.birth < y.birth) ∧ eight.any (·.birth == 8) = true ∧
    eight.any (·.birth == 9) = false ∧ (eight.filter (·.birth < 9)).length + 1 = 9 := by
  decide

theorem test_ninth_bucket_merges_the_oldest_two :
    insertBucket { birth := 9, blocks := 4 } eight =
      ({ birth := 1, blocks := 2 } :: eight.drop 2 ++ [{ birth := 9, blocks := 4 }], true) := by
  decide

theorem test_release_at_the_newest_epoch_is_retained :
    last (after .release (ask station (releaseRecord 42 4))) =
      some (reply 5 1 .ok (.release 8 0 42)) ∧
    last (after .release (ask station (releaseRecord 51 5))) =
      some (noticeOf 7 (.eventPending 1 1)) := by
  decide +kernel

theorem witness_OwnerTimersAndTheFullTable :
    let graced := fun (deadline : Nat) (graceTaken : Bool) =>
      station.setOwners [{ owner with grace := some deadline, graceTaken }]
    station.rst = false ∧ station.entryInSlot 0 = some entry ∧ station.entryInSlot 1 = none ∧
    station.passed entry.lease = true ∧ station.passed (some 1001) = false ∧
    station.passed (some 1000) = true ∧ station.findOwner entry.owner = some owner ∧
    station.findOwner 0x12 = none ∧
    (station.setOwners [{ owner with warmUp := some 1000 }]).findOwner 0x11 =
      some { owner with warmUp := some 1000 } ∧ station.passed owner.warmUp = false ∧
    (graced 1000 false).findOwner 0x11 = some { owner with grace := some 1000 } ∧
    owner.graceTaken = false ∧
    (graced 1000 true).findOwner 0x11 =
      some { owner with grace := some 1000, graceTaken := true } ∧
    (graced 1001 false).findOwner 0x11 = some { owner with grace := some 1001 } := by
  decide

theorem test_lease_expiry_returns_blocks :
    let t := after (.leaseExpiry 0) station
    t.adm.entries = [] ∧ t.findOwner 0x11 = some { owner with reserved := 0 } ∧
    t.port.events[EventKind.index .leaseExpired] =
      { flag := true, count := 1, subject := 0x11 } := by
  decide

/-- A full Owner Table of 4,096 records like the one given, of the owners 1000 up. -/
def crowd (f : Owner) : State :=
  { station with
    owners := (List.range 4096).map fun k => { f with id := BitVec.ofNat 32 (k + 0x1000) },
    adm := { entries := [], handleCounter := 0 } }

theorem crowd_ordered (f : Owner) (h : f.contributions = []) :
    OwnersOrdered (crowd f) ∧ (crowd f).owners.length = 4096 := by
  refine ⟨⟨by simp [crowd], ?_, ?_⟩, by simp [crowd]⟩
  · rw [crowd, List.pairwise_map]
    refine List.Pairwise.imp_of_mem (fun ha hb hlt => ?_) List.pairwise_lt_range
    simp only [List.mem_range] at ha hb
    simp only [BitVec.lt_def, BitVec.toNat_ofNat]
    omega
  · intro o ho
    simp only [crowd, List.mem_map] at ho
    obtain ⟨k, -, rfl⟩ := ho
    simp [h]

theorem crowd_lacks (f : Owner) (id : OwnerId) (h : id.toNat < 0x1000) :
    (crowd f).findOwner id = none := by
  simp only [State.findOwner, crowd, List.find?_eq_none, List.mem_map, List.mem_range]
  rintro o ⟨k, hk, rfl⟩ he
  rw [beq_iff_eq] at he
  have := congrArg BitVec.toNat he
  simp only [BitVec.toNat_ofNat] at this
  omega

/-- A record that gives way, and one that does not. -/
def idle : Owner := { owner with used := 0, reserved := 0, lastReported := 0 }

theorem crowd_victim : IsVictim (crowd idle) { idle with id := 0x1000 } := by
  refine ⟨?_, ⟨rfl, rfl, rfl, by simp [crowd]⟩, ?_⟩
  · simp only [crowd, List.mem_map, List.mem_range]
    exact ⟨0, by omega, rfl⟩
  · intro x hx _
    simp only [crowd, List.mem_map, List.mem_range] at hx
    obtain ⟨k, hk, rfl⟩ := hx
    refine Or.inr ⟨rfl, ?_⟩
    simp only [BitVec.le_def, BitVec.toNat_ofNat, show (0x1000 : OwnerId).toNat = 4096 from rfl]
    omega

theorem crowd_without_victim : ∀ x ∈ (crowd owner).owners, ¬Evictable (crowd owner) x := by
  intro x hx hv
  simp only [crowd, List.mem_map] at hx
  obtain ⟨k, -, rfl⟩ := hx
  exact absurd hv.1 (show owner.used ≠ 0 by decide)

/-- The job of the tracked owner 12, and the requests of that owner. -/
def crowdJob : Context :=
  { state := .assembling, job := 3, owner := 0x12, tracked := true, sourceSlot := 0,
    sourceEpoch := 4, targetSlot := 0, k := 1,
    items := [{ source := 0, length := 4, birth := 1, target := 0, state := .pending }],
    deadline := some 1000, handle := none, outstanding := 0, failureSeen := false,
    endDue := false, timeoutDue := false, charged := 0 }

/-- The requests in the full table, beside crowd_ordered, crowd_lacks, crowd_victim and
crowd_without_victim. -/
theorem witness_OwnerTimersAndTheFullTable_full :
    let s := crowd owner
    let reserve := request 1 1 [(4, 0x12), (2, 1), (4, 180)]
    let commit := request 3 1 [(2, 0), (4, 0x12), (4, 5), (2, 1), (4, 0), (2, 0)]
    let go := request 13 1 [(1, 0), (2, 3)]
    let load := request 26 1 [(4, 0x12), (4, 5), (1, 0), (4, 0), (4, 0)]
    s.classOf 0x12 = some 0 ∧ (s.findVol 1).isSome = true ∧
    Takes (ask s reserve) 1 reserve ∧
    parseReserve reserve = some { owner := 0x12, volume := 1, n := 180 } ∧
    (s.effectiveLimits (newRecord s 0x12 0)).hard = 180 ∧ lowestFreeSlot 0 s.adm.entries < 512 ∧
    Takes (ask s commit) 3 commit ∧ (parseCommit commit).map (·.handle) = some 0 ∧
    (parseCommit commit).map s.extentCheck = some none ∧
    Takes (ask (s.putContext 0 (some crowdJob)) go) 13 go ∧
    parseJob go = some { context := 0, job := 3 } ∧ crowdJob.k ≤ crowdJob.items.length ∧
    Takes (ask (s.setPart .loading) load) 26 load ∧
    (parseLoadOwner load).map (·.overridePresent) = some 0 :=
  ⟨by decide, by decide, takes_of (by decide), by decide, by decide, by decide,
    takes_of (by decide), by decide, by decide, takes_of (by decide), by decide, by decide,
    takes_of (by decide), by decide⟩

/-! ### Snapshots, holds and the hold lock -/

def snapshotRecord (kind : Nat) : Bytes := request 6 1 [(2, 1), (1, kind), (4, 77)]

theorem witness_SnapshotTakesTheOpenEpoch :
    let s := ask station (snapshotRecord 1)
    let above := withVolume fun v => { v with retained := 51 }
    Takes s 6 (snapshotRecord 1) ∧
    parseSnapshot (snapshotRecord 1) = some { volume := 1, kind := 1, label := 77 } ∧
    SnapKind.ofCode 1 = some .manual ∧ s.findVol 1 = some (0, volume) ∧
    volume.dup ≠ .cutPending ∧ volume.overLimit = false ∧ s.cat.snaps.length < 256 ∧
    above.findVol 1 = some (0, { volume with retained := 51 }) ∧
    Volume.overLimit { volume with retained := 51 } = true ∧
    Volume.overLimit { volume with retained := 50 } = false :=
  ⟨takes_of (by decide), by decide⟩

theorem test_snapshot_reserve_full :
    last (after .snapshot (ask (withVolume fun v => { v with retained := 51 })
      (snapshotRecord 1))) = some (reply 6 1 .reserveFull (.snapshot 0)) := by
  decide

/-- The volume when its cut is owed, with the snapshot of epoch 4 as base and send snapshot. -/
def owesCut (current : List Extent) : State :=
  let s := withVolume fun v =>
    { v with dup := .cutPending, base := some 4, sendEpoch := some 4, current }
  s.setCat { s.cat with snaps := [{ snapshot with refs := 2 }] }

theorem witness_CutsAndTheirTickets_cut :
    let r := snapshotRecord 2
    let s := ask (owesCut [{ start := 10, length := 5 }]) r
    let v : Volume := { volume with dup := .cutPending, base := some 4, sendEpoch := some 4 }
    let scanned := withVolume fun v => { v with dup := .cutPending }
    Takes s 6 r ∧ Takes (ask (owesCut []) r) 6 r ∧ Takes (ask scanned r) 6 r ∧
    parseSnapshot r = some { volume := 1, kind := 2, label := 77 } ∧
    SnapKind.ofCode 2 = some .duplication ∧ s.findVol 1 = some (0, v) ∧
    (ask (owesCut []) r).findVol 1 = some (0, { v with current := [] }) ∧
    (ask scanned r).findVol 1 = some (0, { volume with dup := .cutPending }) ∧
    RetainedCounted s ∧ RetainedCounted (ask (owesCut []) r) ∧ RetainedCounted (ask scanned r) ∧
    (∀ e ∈ v.sendEpoch, e < v.openEpoch) ∧ v.endDue = false ∧ Volume.overLimit v = false ∧
    s.cat.snaps.length < 256 ∧ startsScan v = false ∧
    startsScan { volume with dup := .cutPending } = true :=
  ⟨takes_of (by decide), takes_of (by decide), takes_of (by decide), by decide⟩

theorem test_cut_with_nothing_to_send_is_done :
    let t := after .snapshot (ask (owesCut []) (snapshotRecord 2))
    (t.vol 0).map (fun v => (v.dup, v.base, v.sendEpoch)) = some (.done, some 5, none) ∧
    (t.findSnap 0 4).map (·.refs) = some 0 ∧ (t.findSnap 0 5).map (·.refs) = some 1 ∧
    last t = some (noticeOf 6 (.dupEnd 1 5 false 0)) := by
  decide

theorem test_cut_without_a_base_scans :
    let t := after .snapshot (ask (withVolume fun v => { v with dup := .cutPending })
      (snapshotRecord 2))
    (t.vol 0).map (·.send) = some (.scan 0) ∧ (t.vol 0).map (·.dup) = some .sending ∧
    t.poolFree = 4096 ∧ (t.findSnap 0 5).map (·.refs) = some 1 := by
  decide

def deleteRecord : Bytes := request 7 1 [(2, 1), (4, 4)]

theorem witness_DeletionByRequestAndByExpiry_request :
    let s := ask station deleteRecord
    let held := s.setCat { s.cat with snaps := [{ snapshot with hold := true }] }
    Takes s 7 deleteRecord ∧ parseDelete deleteRecord = some { volume := 1, epoch := 4 } ∧
    s.findVol 1 = some (0, volume) ∧ s.findSnap 0 4 = some snapshot ∧ snapshot.refs = 0 ∧
    held.findSnap 0 4 = some { snapshot with hold := true } ∧
    (let two := s.setCat { s.cat with snaps := [{ snapshot with epoch := 2 }, snapshot] };
      two.nextOlder 0 4 = some 2 ∧
        two.findSnap 0 2 = some { snapshot with epoch := 2 }) :=
  ⟨takes_of (by decide), by decide⟩

theorem test_delete_moves_what_the_older_contains :
    let older := { snapshot with epoch := 2, buckets := [] }
    let s := station.setCat { station.cat with
      snaps := [older, { snapshot with buckets := [⟨2, 8⟩, ⟨3, 1⟩] }] }
    last (after .deleteSnapshot (ask s deleteRecord)) =
      some (reply 7 1 .ok (.deleteSnapshot (freed := 1) (moved := 8) (receiver := 2))) := by
  decide

def markRecord (kind action : Nat) : Bytes := request kind 1 [(2, 1), (4, 4), (1, action)]

theorem witness_HoldAndPinSetTheirMarks :
    let closed := station.setCat { station.cat with lock := .closed }
    Takes (ask station (markRecord 8 0)) 8 (markRecord 8 0) ∧
    Takes (ask closed (markRecord 8 1)) 8 (markRecord 8 1) ∧
    Takes (ask closed (markRecord 9 1)) 9 (markRecord 9 1) ∧
    parseMark (markRecord 8 0) = some { volume := 1, epoch := 4, action := 0 } ∧
    parseMark (markRecord 9 1) = some { volume := 1, epoch := 4, action := 1 } ∧
    station.findVol 1 = some (0, volume) ∧ station.findSnap 0 4 = some snapshot ∧
    station.cat.lock ≠ .closed ∧ closed.cat.lock = .closed ∧ volume.overLimit = false :=
  ⟨takes_of (by decide), takes_of (by decide), takes_of (by decide),
    by decide⟩

theorem witness_LockHoldsClosesTheLock :
    Takes (ask station (request 10 1 [])) 10 (request 10 1 []) ∧
    parseEmpty (request 10 1 []) = some () :=
  ⟨takes_of (by decide), by decide⟩

theorem witness_DeletionByRequestAndByExpiry_expiry :
    let within := withVolume fun v => { v with expiryWaiting := true }
    let above := withVolume fun v => { v with expiryWaiting := true, limit := 7 }
    let manual := withVolume fun v =>
      { v with expiryWaiting := true, limit := 7, autoExpire := false }
    let held := above.setCat { above.cat with snaps := [{ snapshot with hold := true }] }
    (fill 56 within).room = false ∧ (fill 55 within).room = true ∧
    within.vol 0 = some { volume with expiryWaiting := true } ∧
    Volume.overLimit { volume with expiryWaiting := true } = false ∧
    above.vol 0 = some { volume with expiryWaiting := true, limit := 7 } ∧
    Volume.overLimit { volume with expiryWaiting := true, limit := 7 } = true ∧
    above.candidate 0 = some 4 ∧ above.findSnap 0 4 = some snapshot ∧
    manual.vol 0 = some { volume with expiryWaiting := true, limit := 7, autoExpire := false } ∧
    held.candidate 0 = none ∧ volume.overReported = false ∧ station.vol 0 = some volume ∧
    volume.expiryWaiting = false := by
  decide

/-- R83 evaluates the second waiting volume too, when the first has used the room up. -/
theorem test_every_waiting_volume_is_evaluated :
    let s := (withVolume fun v => { v with expiryWaiting := true, limit := 7 }).putVol 1
      (some { volume with
        id := 2, retained := 9, limit := 7, expiryWaiting := true, autoExpire := false })
    let t := after .expiryWaitingEvaluation (fill 55 s)
    last t = some (noticeOf 4 (.expired 1 4 8)) ∧ t.room = false ∧
    (t.vol 1).map (fun v => (v.expiryWaiting, v.overReported)) = some (false, true) := by
  decide

theorem test_expired_notice :
    last (after .expiryWaitingEvaluation
      (withVolume fun v => { v with expiryWaiting := true, limit := 7 })) =
    some (noticeOf 4 (.expired 1 4 8)) := by
  decide

theorem witness_ClosedLockKeepsEveryHold :
    let s := station.setCat { station.cat with
      lock := .closed, snaps := [{ snapshot with hold := true }] }
    RetainedCounted s ∧ s.part = .serving ∧ s.cat.lock = .closed ∧
    { snapshot with hold := true } ∈ s.cat.snaps ∧ (after .deferralDeadline s) = s := by
  decide

/-! ### Restore jobs -/

def openRecord : Bytes := request 11 1 [(4, 0x11), (2, 1), (4, 4), (2, 1), (1, 32)]

theorem witness_RestoreOpenFillsAContext :
    let s := ask station openRecord
    let full := [1, 2, 3].foldl (fun u c => u.putContext c (some (job .assembling .pending)))
      (withJob (job .assembling .pending))
    Takes s 11 openRecord ∧
    parseOpen openRecord = some { owner := 0x11, source := 1, epoch := 4, target := 1, k := 32 } ∧
    s.findVol 1 = some (0, volume) ∧ s.findSnap 0 4 = some snapshot ∧ s.context 0 = none ∧
    ∀ c : Fin 4, (full.context c).isSome = true :=
  ⟨takes_of (by decide), by decide⟩

theorem test_restore_open_takes_a_reference :
    let t := after .restoreOpen (ask station openRecord)
    last t = some (reply 11 1 .ok (.restoreOpen 0 1 (some 11000))) ∧
    (t.findSnap 0 4).map (·.refs) = some 1 ∧ (t.context 0).map (·.state) = some .assembling := by
  decide

def itemRecord (birth target : Nat) : Bytes :=
  request 12 1 [(1, 0), (2, 3), (4, 990), (2, 10), (4, birth), (4, target)]

/-- A job still short of its third item; the next target may start at 12. -/
def openJob : Context := { job .assembling .pending with k := 3 }

theorem witness_RestoreItemJoinsOrAbortsTheJob :
    let s := ask (withJob openJob) (itemRecord 4 12)
    Takes s 12 (itemRecord 4 12) ∧
    parseItem (itemRecord 4 12) = some
      { context := 0, job := 3, source := 990, length := 10, birth := 4, target := 12 } ∧
    s.context 0 = some openJob ∧ openJob.items.length < openJob.k ∧
    990 + 10 ≤ s.sizeOf openJob.sourceSlot ∧ 12 + 10 ≤ s.sizeOf openJob.targetSlot ∧
    (openJob.items.getLast?.any fun l => decide (12 < l.target + l.length)) = false ∧
    (openJob.items.getLast?.any fun l => decide (11 < l.target + l.length)) = true ∧
    openJob.sourceEpoch < 5 ∧ s.sizeOf openJob.sourceSlot < 991 + 10 ∧
    Volume.overLimit volume = false ∧ s.vol openJob.sourceSlot = some volume :=
  ⟨takes_of (by decide), by decide⟩

theorem test_item_of_a_later_birth_aborts :
    let t := after .restoreItem (ask (withJob openJob) (itemRecord 5 12))
    t.context 0 = none ∧ last t = some (reply 12 1 .aborted
      (.restoreItem (reason := .birth) (wouldBe := 2) (heldItems := 2))) := by
  decide

def jobRecord (kind : Nat) : Bytes := request kind 1 [(1, 0), (2, 3)]

theorem witness_RestoreGoOfAnUntrackedOwner :
    let s := ask (withJob (job .assembling .pending)) (jobRecord 13)
    let night := { s with dup := { s.dup with window := .opened } }
    Takes s 13 (jobRecord 13) ∧ parseJob (jobRecord 13) = some { context := 0, job := 3 } ∧
    s.context 0 = some (job .assembling .pending) ∧
    (job .assembling .pending).items.length = (job .assembling .pending).k ∧
    (job .assembling .pending).tracked = false ∧ openJob.items.length < openJob.k ∧
    night.dup.suspension = .issuing ∧ night.dup.lastResume = none :=
  ⟨takes_of (by decide), by decide⟩

/-- The job of the tracked owner 11, with a total of 8 blocks. -/
def trackedJob : Context := { job .assembling .pending with owner := 0x11, tracked := true }

theorem witness_RestoreGoAdmitsTheWholeJob :
    let s := ask (withJob trackedJob) (jobRecord 13)
    let u := s.reevaluate owner
    let heavy := { owner with used := 183 }
    Takes s 13 (jobRecord 13) ∧ s.context 0 = some trackedJob ∧ s.classOf 0x11 = some 0 ∧
    (trackedJob.items.map (·.length)).sum = 8 ∧ s.findOwner 0x11 = some owner ∧
    min (u.view + 8) 4294967295 ≤ (s.effectiveLimits u).soft ∧
    lowestFreeSlot 0 s.adm.entries < 512 ∧ (s.effectiveLimits (s.reevaluate heavy)).hard = 200 ∧
    (s.reevaluate heavy).view + 8 = 201 :=
  ⟨takes_of (by decide), by decide⟩

theorem test_go_reserves_and_starts_copying :
    let t := after .restoreGo (ask (withJob trackedJob) (jobRecord 13))
    (t.entryByHandle 8).map (·.blocks) = some 8 ∧ t.dup.running = 1 ∧
    last t = some (noticeOf 1 (.copyNotice 0 0 3 1 1 4 0 0 4)) := by
  decide

theorem witness_RestoreCancelFreesOrDrains :
    let s := ask (withJob (job .assembling .pending)) (jobRecord 14)
    let running := ask (withJob (job .running .outstanding)) (jobRecord 14)
    Takes s 14 (jobRecord 14) ∧ Takes running 14 (jobRecord 14) ∧
    parseJob (jobRecord 14) = some { context := 0, job := 3 } ∧
    s.context 0 = some (job .assembling .pending) ∧
    running.context 0 = some (job .running .outstanding) ∧
    (job .running .outstanding).outstanding = 1 ∧ (job .running .outstanding).endDue = false :=
  ⟨takes_of (by decide), takes_of (by decide), by decide⟩

def copiedRecord (result : Nat) : Bytes := request 15 1 [(1, 0), (2, 3), (1, 0), (1, result)]

/-- The running job of owner 11 with its handle and its first item OUTSTANDING. -/
def chargedJob : Context :=
  { job .running .outstanding with owner := 0x11, tracked := true, handle := some 7 }

theorem witness_CopiedChargesOrDrains :
    let s := ask (withJob chargedJob) (copiedRecord 0)
    let two := { chargedJob with outstanding := 2 }
    Takes s 15 (copiedRecord 0) ∧
    parseCopied (copiedRecord 0) = some { context := 0, job := 3, item := 0, result := 0 } ∧
    parseCopied (copiedRecord 1) = some { context := 0, job := 3, item := 0, result := 1 } ∧
    s.context 0 = some chargedJob ∧ chargedJob.copiedCount + 1 < chargedJob.k ∧
    (chargedJob.items[0]?).map (·.state) = some .outstanding ∧ chargedJob.endDue = false ∧
    s.entryByHandle 7 = some entry ∧ s.findOwner entry.owner = some owner ∧
    (withJob two).context 0 = some two :=
  ⟨takes_of (by decide), by decide⟩

theorem test_copied_moves_reserved_to_used :
    let t := after .copied (ask (withJob chargedJob) (copiedRecord 0))
    t.findOwner 0x11 = some { owner with reserved := 6, used := 54, lastCharge := 1000 } ∧
    (t.context 0).map (·.charged) = some 4 := by
  decide

theorem witness_CopyNoticeServesTheRoundRobin :
    let s := withJob (job .running .pending)
    s.rst = false ∧ (fill 56 s).room = false ∧ s.room = true ∧
    s.rsc.lastServed + 1 + (0 : Fin 4) = 0 ∧ s.context 0 = some (job .running .pending) ∧
    (job .running .pending).copyReady s.cfg.copyDepth = true ∧
    ((job .running .pending).items[0]?).map (·.state) = some .pending ∧
    (job .running .outstanding).copyReady s.cfg.copyDepth = false ∧
    (fill 55 s).room = true ∧ (fill 55 s).port.completions.length = 55 := by
  decide

theorem witness_AssemblyTimesOut :
    let due := { job .assembling .pending with timeoutDue := true }
    (withJob (job .assembling .pending)).context 0 = some (job .assembling .pending) ∧
    station.passed (job .assembling .pending).deadline = true ∧
    (withJob due).context 0 = some due ∧ (withJob due).room = true ∧
    (fill 56 (withJob due)).room = false ∧ station.vol due.sourceSlot = some volume ∧
    volume.overLimit = false := by
  decide

theorem witness_RestoreEndReturnsTheResidue :
    let ended := { chargedJob with state := .draining, endDue := true, outstanding := 0 }
    (withJob ended).context 0 = some ended ∧ (withJob ended).room = true ∧
    (fill 56 (withJob ended)).room = false ∧ (withJob ended).entryByHandle 7 = some entry ∧
    (withJob ended).findOwner entry.owner = some owner ∧
    (withJob { ended with handle := none }).context 0 = some { ended with handle := none } := by
  decide

theorem test_restore_end_returns_ten_blocks :
    let t := after (.restoreEndStep 0)
      (withJob { chargedJob with state := .draining, endDue := true, outstanding := 0 })
    last t = some (noticeOf 5 (.restoreEnd 0 3 .cancelled 0 0 10)) ∧ t.context 0 = none ∧
    t.adm.entries = [] := by
  decide

/-! ### The night window and duplication -/

def sentRecord (result : Nat) : Bytes := request 16 1 [(2, 1), (1, result)]

/-- The volume of `sending` changed, and the window. -/
def answering (window : WindowState) (f : Volume → Volume) : State :=
  (sending.modifyVol 0 f).setDup { sending.dup with window }

theorem witness_CutsAndTheirTickets_sent :
    let s := ask (answering .closed id) (sentRecord 1)
    let ended := answering .opened fun v => { v with send := .extents [] }
    let closing := answering .closing id
    let x : Ticket :=
      { number := 1, slot := 0, sendEpoch := 4, work := .extents [⟨0, 9⟩], cost := 9 }
    let v : Volume := { volume with
      dup := .sending, sendEpoch := some 4, outstanding := 1, send := .extents [⟨100, 64⟩] }
    let answered := fun (u : State) => (u.putTicket 0 none).modifyVol 0 fun w =>
      { w with outstanding := 0 }
    Takes s 16 (sentRecord 1) ∧ Takes (ask ended (sentRecord 0)) 16 (sentRecord 0) ∧
    Takes (ask closing (sentRecord 0)) 16 (sentRecord 0) ∧
    parseSent (sentRecord 1) = some { ticket := 1, result := 1 } ∧
    parseSent (sentRecord 2) = some { ticket := 1, result := 2 } ∧
    s.ticket 0 = some x ∧ x.number = 1 ∧ s.vol 0 = some v ∧
    (∀ k, (s.ticket k).all (fun y => y.number != 2) = true) ∧
    ((s.profileOf v).retryLimit < min (v.failures + 1) 255) ∧ v.endDue = false ∧
    (answering .closed fun w => { w with endDue := true }).vol 0 =
      some { v with endDue := true } ∧
    (answered s).head = none ∧ (answered s).dup.window ≠ .closing ∧
    (answered s).endReached 0 { v with outstanding := 0 } = false ∧
    (answered ended).endReached 0
      { v with outstanding := 0, send := .extents [] } = true ∧
    closing.dup.window = .closing ∧ (answered closing).ticketsOut = [] ∧
    (answered closing).endReached 0 { v with outstanding := 0 } = false ∧
    ∀ j, ((answered closing).vol j).all (fun z => z.endDue = false) = true :=
  ⟨takes_of (by decide), takes_of (by decide), takes_of (by decide), by decide⟩

/-- A leftover ticket that fails while the end of its volume is due stalls nothing (R153, log 34). -/
theorem test_failure_while_the_end_is_due :
    let t := after .sent (fill 56 (ask (answering .opened fun v =>
      { v with endDue := true, send := .extents [] }) (sentRecord 1)))
    (t.vol 0).map (fun v => (v.dup, v.endDue, v.failures)) = some (.sending, true, 1) := by
  decide

theorem test_failed_ticket_stalls_at_its_limit :
    let t := after .sent (ask sending (sentRecord 1))
    (t.vol 0).map (·.dup) = some .stalled ∧ t.poolFree = 4093 ∧
    (t.vol 0).map (·.send) = some (.extents [⟨0, 9⟩, ⟨100, 64⟩]) := by
  decide

theorem witness_DuplicateNowOwesACut :
    let opened := (withVolume fun v => { v with dup := .missed }).setDup
      { Duplication.reset with window := .opened }
    let s := ask opened (handleRecord 17 1)
    Takes s 17 (handleRecord 17 1) ∧ Takes (fill 55 s) 17 (handleRecord 17 1) ∧
    Takes (ask station (handleRecord 17 1)) 17 (handleRecord 17 1) ∧
    parseNumber2 (handleRecord 17 1) = some 1 ∧ station.dup.window ≠ .opened ∧
    s.findVol 1 = some (0, { volume with dup := .missed }) ∧ s.dup.window = .opened ∧
    (station.setDup { Duplication.reset with window := .opened }).findVol 1 = some (0, volume) ∧
    volume.dup = .idle :=
  ⟨takes_of (by decide), takes_of (by decide), takes_of (by decide),
    by decide⟩

/-- The station one minute before the start minute, at the next advance. -/
def evening (minute : Nat) (window : WindowState) : State :=
  { station with
    time := { station.time with minute := some minute, nextAdvance := some 1000 },
    dup := { station.dup with window } }

theorem witness_MinuteOfDayDrivesTheWindow :
    let clock := fun m => handleRecord 18 m
    Takes (ask station (clock 1439)) 18 (clock 1439) ∧
    Takes (ask (evening 299 .opened) (clock 300)) 18 (clock 300) ∧
    parseNumber2 (clock 1439) = some 1439 ∧ parseNumber2 (clock 1440) = some 1440 ∧
    station.time.minute = none ∧ (evening 59 .closed).time.minute = some 59 ∧
    (evening 59 .closed).time.nextAdvance = some 1000 ∧ 1000 ≤ (evening 59 .closed).time.uptime ∧
    (evening 59 .closed).passed (some 1001) = false ∧
    (59 + 1) % 1440 = (evening 59 .closed).cfg.windowStart ∧
    inWindow 60 300 ((298 + 1) % 1440) = true ∧ inWindow 60 300 ((299 + 1) % 1440) = false ∧
    (evening 299 .opened).dup.window = .opened ∧ (evening 299 .opened).part = .serving ∧
    (evening 299 .opened).vol 0 = some volume ∧ volume.dupEnable = true ∧
    (evening 299 .closing).dup.window = .closing ∧ loading.part ≠ .serving :=
  ⟨takes_of (by decide), takes_of (by decide), by decide⟩

theorem test_clock_at_the_window_end_closes :
    let t := after .clock (ask (evening 299 .opened) (handleRecord 18 300))
    t.dup.window = .closed ∧
    last t = some (reply 18 1 .ok (.clock 300 .closed (some 61000))) ∧
    last (after .clock (ask station (handleRecord 18 1440))) =
      some (reply 18 1 .badField (.clock)) := by
  decide

theorem test_window_opens_and_asks_for_the_cut :
    let t := after .minuteAdvance (evening 59 .closed)
    t.dup.window = .opened ∧ last t = some (noticeOf 3 (.cutNotice 1 5 0 true 11000)) ∧
    (after .minuteAdvance (evening 299 .opened)).dup.window = .closed ∧
    (after .minuteAdvance (evening 1439 .closed)).time.minute = some 0 := by
  decide

theorem witness_WindowClosesWhenNothingIsOut :
    let closing := fun s : State => s.setDup { s.dup with window := .closing }
    let done := (closing sending).putTicket 0 none
    (closing sending).dup.window = .closing ∧ ((closing sending).ticket 0).isSome = true ∧
    done.dup.window = .closing ∧ (∀ k, done.ticket k = none) ∧
    (∀ i : Fin 8, ((done.vol i).any (·.endDue)) = false) ∧
    (done.vol 0).map (·.dup) = some .sending := by
  decide

theorem witness_CutIsAskedForAndTimesOut :
    let due := withVolume fun v => { v with dup := .cutPending, cutDue := true }
    let asked := withVolume fun v => { v with dup := .cutPending, cutDeadline := some 1000 }
    due.rst = false ∧ due.room = true ∧ (fill 56 due).room = false ∧
    due.vol 0 = some { volume with dup := .cutPending, cutDue := true } ∧
    asked.vol 0 = some { volume with dup := .cutPending, cutDeadline := some 1000 } ∧
    asked.passed (some 1000) = true ∧ asked.passed (some 1001) = false := by
  decide

theorem witness_IssuePassSendsTheHeadsTicket :
    station.head = none ∧ (sending.head.map (·.1)) = some 0 ∧ sending.room = true ∧
    (sending.vol 0).map sending.nextCost = some 64 ∧ sending.dup.tokens = 64 * 1000 ∧
    (sending.setDup { sending.dup with tokens := 63999 }).head.isSome = true ∧
    (let scan := sending.modifyVol 0 fun v => { v with send := .scan 0 };
      (scan.head.map (·.1)) = some 0 ∧ (scan.vol 0).map scan.nextCost = some 20) := by
  decide

theorem test_issue_pass_sends_the_ticket :
    let t := after .issuePass sending
    last t = some (noticeOf 2 (.sendExtents 2 1 4 0 64 [(100, 64)])) ∧ t.dup.tokens = 0 ∧
    (t.ticket 1).map (·.number) = some 2 := by
  decide

theorem witness_TokensGainAndDeferralEnds :
    let owed := station.setTime { station.time with gainOwed := true }
    let deferred := station.setDup
      { station.dup with suspension := .deferred, deferral := some 1000, running := 1 }
    station.time.gainOwed = false ∧ owed.time.gainOwed = true ∧ owed.dup.window ≠ .opened ∧
    station.dup.suspension ≠ .deferred ∧ deferred.dup.suspension = .deferred ∧
    deferred.passed deferred.dup.deferral = true := by
  decide

theorem witness_DuplicationEndMovesTheBase :
    let ended := withVolume fun v =>
      { v with dup := .sending, sendEpoch := some 4, endDue := true }
    ended.vol 0 = some { volume with dup := .sending, sendEpoch := some 4, endDue := true } ∧
    ended.room = true ∧ (fill 56 ended).room = false := by
  decide

theorem test_dup_end_moves_the_role :
    let t := after (.dupEndStep 0) (withVolume fun v =>
      { v with dup := .sending, sendEpoch := some 4, endDue := true })
    (t.vol 0).map (·.base) = some (some 4) ∧ last t = some (noticeOf 6 (.dupEnd 1 4 false 0)) := by
  decide

/-- The night at the next announce-timer expiry, a minute before the window ends. -/
def lateNight : State :=
  let s := sending.setTime { sending.time with minute := some 299, nextAdvance := some 1000 }
  s.setLink { s.link with announceNext := some 1000 }

theorem witness_OwnFramesAndTheNightsFigures_figures :
    let s := lateNight.setDup { lateNight.dup with
      share := shareOf lateNight.cfg lateNight.ownBacklog lateNight.peerBacklog }
    lateNight.rst = false ∧ lateNight.link.announceNext = some 1000 ∧
    1000 ≤ lateNight.time.uptime ∧ lateNight.dup.window = .opened ∧
    lateNight.time.minute = some 299 ∧ lateNight.time.nextAdvance = some 1000 ∧
    lateNight.ownBacklog = 73 ∧ s.dup.share = 800 ∧
    (lateNight.vol 0).map (lateNight.estimate 0) = some none ∧
    (s.vol 0).map (s.estimate 0) = some (some 252) ∧ s.servingOrder = [(0, some 252)] ∧
    1000 + 60000 * ((lateNight.cfg.windowEnd + 1439 - 299) % 1440) <
      lateNight.time.uptime + 252 ∧
    (lateNight.vol 0).map (·.atRisk) = some false ∧
    (station.vol 0).map (station.backlogOf 0) = some 0 := by
  decide

theorem test_late_volume_is_at_risk :
    let t := after .announceTimerExpiry lateNight
    (t.vol 0).map (·.atRisk) = some true ∧
    t.port.events[EventKind.index .atRisk] = { flag := true, count := 1, subject := 1 } := by
  decide

/-! ### The station link -/

/-- Station 11 as a peer that has gone STALE, with a contribution of 30 blocks to owner 11. -/
def withPeer (state : PeerState) : State :=
  (station.setOwners [{ owner with contributions := [⟨11, 30, 4⟩] }]).putPeer 11
    { Peer.reset with state, generation := 4, heard := some 1000, announced := true }

def forgetRecord : Bytes := request 19 1 [(1, 11)]

/-- A sweep for station 11 that has not visited yet. -/
def sweep : Sweep := { station := 11, cursor := none, removed := 0, tag := 1 }

def sweeping : State :=
  let s := withPeer .forgetting
  s.setLink { s.link with sweep := some sweep, visitOwed := true }

theorem witness_ForgetStationSweepsTheTable :
    Takes (ask (withPeer .stale) forgetRecord) 19 forgetRecord ∧
    Takes (ask (withPeer .live) forgetRecord) 19 forgetRecord ∧
    Takes (ask sweeping forgetRecord) 19 forgetRecord ∧
    parseNumber1 forgetRecord = some (11 : Fin 16).val ∧ (11 : Fin 16) ≠ station.station ∧
    ((withPeer .stale).peer 11).state = .stale ∧ ((withPeer .live).peer 11).state = .live ∧
    sweeping.link.sweep = some sweep ∧ sweeping.link.visitOwed = true ∧
    (sweeping.sweepNext sweep).map (·.id) = some 0x11 ∧ (sweeping.findOwner 0x11).isSome = true ∧
    sweeping.sweepNext { sweep with cursor := some 0x11 } = none ∧
    (fill 63 sweeping).port.completions.length < 64 ∧
    64 ≤ (fill 64 sweeping).port.completions.length :=
  ⟨takes_of (by decide), takes_of (by decide), takes_of (by decide),
    by decide⟩

theorem test_sweep_removes_the_contribution :
    let t := after .forgetSweepVisit sweeping
    t.findOwner 0x11 = some owner ∧ t.link.sweep = some { sweep with cursor := some 0x11, removed := 1 } ∧
    last (after .forgetSweepEnd t) = some (reply 19 1 .ok (.forgetStation 11 1)) := by
  decide

/-- The link one interval before its first or second expiry. -/
def listening (expiries : Nat) (state : LinkState) : State :=
  station.setLink { station.link with state, expiries, announceNext := some 1000 }

theorem witness_AnnounceTimerAndStaleDeadline :
    State.reset.link.announceNext = none ∧ station.time.uptime < 2000 ∧
    (listening 0 .listening).link.announceNext = some 1000 ∧
    1000 ≤ (listening 0 .listening).time.uptime ∧ (listening 0 .listening).link.expiries = 0 ∧
    (listening 1 .listening).link.expiries = 1 ∧
    (listening 1 .listening).link.announceSlot = .empty ∧
    (listening 1 .listening).link.usageSlot = .empty ∧ (listening 0 .mute).link.state = .mute ∧
    (station.peer 11).state ≠ .live ∧ ((withPeer .live).peer 11).heard = some 1000 ∧
    (let old := (withPeer .live).setTime { station.time with uptime := 9000 };
      1000 + old.cfg.staleMultiple * (old.cfg.announceInterval * 1000) ≤ old.time.uptime) := by
  decide

theorem test_second_expiry_announces :
    let t := after .announceTimerExpiry (listening 1 .listening)
    t.link.state = .active ∧ t.link.announceSlot = .held ∧ t.link.announceNext = some 3000 := by
  decide

/-- A frame held by the transmitter, on the pair if wanted. -/
def holding (announce usage : SlotState) (onPair : Option Bytes) (attempts : Nat) : State :=
  station.setLink { station.link with
    announceSlot := announce, usageSlot := usage, onPair, attempts,
    usageEntries := if usage = .empty then [] else [(0x11, 50)] }

theorem witness_TransmitAttemptsSucceedOrCollide :
    (holding .held .empty none 0).heldFrame.isSome = true ∧
    (holding .held .empty none 0).link.backoff = none ∧
    (holding .held .empty (some [1]) 1).link.onPair = some [1] ∧
    (holding .held .empty (some [1]) 1).link.replaced = false ∧
    ((holding .empty .held (some [1]) 9).link.usageEntries.map (·.1)).Nodup ∧
    (holding .empty .held (some [1]) 9).link.attempts < 10 ∧
    10 ≤ (holding .held .empty (some [1]) 10).link.attempts := by
  decide

theorem test_tenth_collision_gives_up :
    let t := after .collision (holding .held .empty (some [1]) 10)
    t.link.announceSlot = .empty ∧ t.port.events[EventKind.index .linkGiveup] =
      { flag := true, count := 1, subject := 2 } ∧
    (after .attemptSuccess (holding .empty .held (some [1]) 1)).findOwner 0x11 =
      some { owner with reportTime := some 1000 } := by
  decide

theorem witness_PeerFramesUpdateTheirEntry :
    station.rst = false ∧ station.link.state ≠ .off ∧ (11 : Fin 16) ≠ station.station ∧
    (station.peer 11).state ≠ .forgetting ∧ (sweeping.peer 11).state = .forgetting ∧
    (24 : Nat) ≤ (List.replicate 24 ((0x11 : OwnerId), 1)).length := by
  decide

/-- Owner 11 with a full list of six contributions, the smallest that of station 5. -/
def reported : Owner :=
  { owner with contributions := [⟨3, 30, 4⟩, ⟨4, 20, 4⟩, ⟨5, 10, 4⟩, ⟨6, 10, 4⟩, ⟨7, 40, 4⟩,
                                 ⟨8, 50, 4⟩] }

theorem witness_PeerFramesUpdateTheirEntry_entry :
    let s := station.setOwners [reported]
    let five := station.setOwners [{ reported with contributions := reported.contributions.drop 1 }]
    OwnersOrdered s ∧ OwnersOrdered five ∧ (s.peer 11).state ≠ .forgetting ∧
    s.findOwner 0x11 = some reported ∧ s.findOwner 0x12 = none ∧
    reported.contributions.any (·.station == 11) = false ∧
    reported.contributions.any (·.station == 5) = true ∧ reported.contributions.length = 6 ∧
    (⟨5, 10, 4⟩ : Contribution) ∈ reported.contributions ∧
    (∀ c ∈ reported.contributions, (10 : Nat) < c.blocks ∨
      (10 = c.blocks ∧ (5 : Fin 16) ≤ c.station)) ∧
    five.findOwner 0x11 =
      some { reported with contributions := reported.contributions.drop 1 } := by
  decide

theorem test_seventh_contribution_displaces_the_smallest :
    let t := (station.setOwners [reported]).usageEntry 11 4 (0x11, 11)
    (t.findOwner 0x11).map (fun o => (o.overflow, o.contributions.map (·.station))) =
      some (true, [3, 4, 6, 7, 8, 11]) ∧
    (((station.setOwners [reported]).usageEntry 11 4 (0x11, 10)).findOwner 0x11).map
      (fun o => (o.overflow, o.contributions)) = some (true, reported.contributions) := by
  decide

theorem test_usage_frame_contributes :
    (after (.frameReceived (usageBytes 11 4 [(0x11, 30)])) station).findOwner 0x11 =
      some { owner with contributions := [⟨11, 30, 4⟩] } ∧
    ((after (.frameReceived (announceBytes 11 4 .serving true 5 6 7)) station).peer 11) =
      { state := .live, generation := 4, part := .serving, window := true, backlog := 5,
        share := 6, ownerCount := 7, heard := some 1000, announced := true } := by
  decide +kernel

theorem witness_BadFramesAndStationConflict :
    State.reset.link.state = .off ∧ ([1, 2, 0, 4] : Bytes).length < 5 ∧
    (5 ≤ ([1, 2, 0, 4, 2] : Bytes).length ∧ (frameOf [1, 2, 0, 4, 2]).lengthOk 5 = false) ∧
    (let burst := (announceBytes 11 4 .serving false 0 0 0).set 17 0xAA;
      crc16 (burst.take (burst.length - 2)) ≠ fieldAt burst (burst.length - 2) 2) ∧
    station.link.state = .active := by
  decide +kernel

theorem test_conflict_mutes :
    (after (.frameReceived (announceBytes 2 4 .serving false 0 0 0))
      (holding .held .empty (some [1]) 1)).link.state = .mute := by
  decide +kernel

theorem witness_OwnFramesAndTheNightsFigures :
    let timer := fun s : State => s.setLink { s.link with announceNext := some 1000 }
    let due := { owner with lastReported := 40 }
    let s := timer (station.setOwners [due])
    let r := releaseRecord 5 5
    let done := handleRecord 27 9
    (s.rst = false ∧ s.link.announceNext = some 1000 ∧ 1000 ≤ s.time.uptime ∧
      s.link.state = .active ∧ usageChoice s = [(0x11, 50)] ∧
      s.link.announceSlot ≠ .held ∧ s.link.usageSlot ≠ .held) ∧
    (timer (holding .held .waiting (some [1]) 1)).link.announceSlot = .held ∧
    (timer (holding .empty .held (some [1]) 1)).link.usageSlot = .held ∧
    ((holding .empty .held (some [1]) 1).link.onPair = some [1] ∧
      (holding .waiting .held (some [1]) 1).link.announceSlot = .waiting ∧
      (holding .waiting .held (some [1]) 1).link.state = .active ∧
      (holding .waiting .held (some [1]) 1).part = .serving) ∧
    Takes (ask station r) 5 r ∧
    (parseRelease r = some (releaseReq 5 5) ∧ station.findOwner 0x11 = some owner ∧
      station.findVol 1 = some (0, volume) ∧ (5 : Nat) ≤ volume.openEpoch ∧
      isReportDue station { owner with used := 45 } = false ∧
      isReportDue station { owner with used := 40 } = true ∧
      station.link.state = .active ∧ station.link.announceSlot = .empty ∧
      station.link.usageSlot = .empty) ∧
    Takes (ask loading done) 27 done ∧
    (parseNumber2 done = some 9 ∧ loading.link.state = .active ∧
      loading.link.announceSlot = .empty ∧
      (listening 0 .listening).link.state ≠ .active) ∧
    ((holding .held .empty none 0).link.backoff = none ∧
      (holding .held .empty none 0).link.onPair = none ∧
      (holding .empty .held none 0).link.usageSlot = .held ∧
      (holding .empty .held none 0).link.announceSlot ≠ .held) :=
  ⟨by decide, by decide, by decide, by decide, takes_of (by decide), by decide,
    takes_of (by decide), by decide⟩

theorem test_release_of_the_threshold_reports :
    let t := after .release (ask station (releaseRecord 10 5))
    t.link.usageSlot = .held ∧ t.link.usageEntries = [(0x11, 40)] := by
  decide

/-! ### INSPECT, AMEND, EVENTS, RESTART and the reload -/

def inspectRecord (table key part : Nat) : Bytes := request 20 1 [(1, table), (6, key), (1, part)]

set_option maxRecDepth 4000 in
theorem witness_InspectReturnsOnePart :
    let ok := fun (s : State) table key => match s.find table key with
      | .contents f => partCount (fieldBytes f)
      | _ => 0
    let missing := fun (s : State) table key => match s.find table key with
      | .missing _ => true
      | _ => false
    Takes (ask station (inspectRecord 1 0x11 0)) 20 (inspectRecord 1 0x11 0) ∧
    parseInspect (inspectRecord 9 3 7) = some { table := 9, key := 3, part := 7 } ∧
    (station.find 1 0 = .badKey ∧ station.find 2 512 = .badKey ∧ station.find 3 16 = .badKey ∧
      station.find 4 8 = .badKey ∧ station.find 5 4 = .badKey ∧ station.find 9 4 = .badKey) ∧
    (station.find 1 0x12 = .missing [] ∧ missing station 2 511 = true ∧
      missing station 4 7 = true ∧ missing station 5 0x100000005 = true ∧
      missing station 5 0x200000004 = true ∧ missing station 6 3 = true ∧
      missing { station with image := none } 7 7 = true) ∧
    (ok station 1 0x11 = 1 ∧ ok station 2 0 = 1 ∧ ok station 3 15 = 1 ∧ ok station 4 0 = 2 ∧
      ok station 5 0x100000004 = 1 ∧ ok (withJob trackedJob) 6 0 = 1 ∧ ok station 7 7 = 1 ∧
      ok station 8 7 = 1 ∧ ok station 9 3 = 1) ∧
    owner.contributions.length ≤ 6 ∧ station.findOwner 0x11 = some owner ∧
    invalidOwner 0x11 = false :=
  ⟨takes_of (by decide), by decide⟩

theorem test_missing_record_brings_the_whole_summary :
    let t := after .inspect (ask station (inspectRecord 6 3 5))
    last t = some (reply 20 1 .noSuch (.inspect [0, 0, 3, 1, 0])) ∧ t.owners = station.owners := by
  decide

theorem test_owner_contents_fill_one_part :
    ((last (after .inspect (ask station (inspectRecord 1 0x11 0)))).map fun r =>
      (r.status, r.part, r.parts, (r.bytes 0).length)) = some (.ok, 0, 1, 118) := by
  decide

def amendRecord (table key field condition expected value : Nat) : Bytes :=
  request 21 1 [(1, table), (6, key), (1, field), (1, condition), (4, expected),
    (4, 0xFFFFFFFF), (4, value), (4, 0xFFFFFFFF), (1, 0)]

theorem witness_AmendWritesUnderItsMask :
    let soft := amendRecord 1 0x11 0 1 0xFFFFFFFF 70
    let limit := amendRecord 4 0 2 4 50 7
    let q : AmendReq :=
      { table := 1, key := 0x11, field := 0, condition := 1, expected := 0xFFFFFFFF,
        compareMask := 0xFFFFFFFF, value := 70, writeMask := 0xFFFFFFFF, action := 0 }
    Takes (ask station soft) 21 soft ∧ Takes (ask station limit) 21 limit ∧
    parseAmend soft = some q ∧ q.conditionHolds 0xFFFFFFFF = true ∧
    AmendReq.conditionHolds { q with condition := 2 } 0xFFFFFFFF = false ∧
    station.findOwner 0x11 = some owner ∧
    parseAmend limit = some { q with table := 4, key := 0, field := 2, condition := 4, expected := 50, value := 7 } ∧
    AmendReq.conditionHolds { q with condition := 4, expected := 50 } 50 = true ∧
    AmendReq.conditionHolds { q with condition := 3, expected := 50 } 50 = false ∧
    station.vol 0 = some volume :=
  ⟨takes_of (by decide), takes_of (by decide), by decide⟩

theorem test_amended_limit_expires_the_snapshot :
    let t := after .amend (ask station (amendRecord 4 0 2 4 50 7))
    t.port.completions = [reply 21 1 .ok (.amend 50 7 true .normal true),
      noticeOf 4 (.expired 1 4 8)] ∧ t.cat.snaps = [] := by
  decide

theorem witness_EventsReturnsAndClearsTheSummary :
    Takes (ask station (request 22 1 [])) 22 (request 22 1 []) ∧
    parseEmpty (request 22 1 []) = some () :=
  ⟨takes_of (by decide), by decide⟩

theorem test_events_returns_the_raised_kind :
    last (after .events (ask (station.raise .atRisk 1) (request 22 1 []))) =
      some (reply 22 1 .ok (.events [(14, 1, 1)])) := by
  decide

theorem witness_EventPendingIsPlacedWithRoom :
    let due := station.raise .atRisk 1
    due.port.eventDue = true ∧ (fill 55 due).port.completions.length ≤ 55 ∧
    (fill 55 due).port.eventDue = true ∧ 55 < (fill 56 due).port.completions.length ∧
    station.port.eventDue = false := by
  decide

theorem witness_RestartKeepsStrapsAndImage :
    let r := request 23 1 []
    let halted := { station with part := .halted, image := none }
    Takes (ask station r) 23 r ∧ Takes (ask halted r) 23 r ∧ parseEmpty r = some () ∧
    (ask station r).image.isSome = true ∧ (ask halted r).image = none :=
  ⟨takes_of (by decide), takes_of (by decide), by decide⟩

theorem test_restart_enters_loading :
    let t := after .restart (ask station (request 23 1 []))
    t.part = .loading ∧ t.link.state = .listening ∧ t.owners = [] ∧
    t.port.completions = [reply 23 1 .ok (.restart 2 .loading 0)] := by
  decide

def loadVolumeRecord (base : Nat) : Bytes :=
  request 24 1 [(2, 2), (4, 500), (4, 9), (4, 50), (1, 1), (1, 0), (1, 3), (1, 1), (4, base)]

def loadSnapshotRecord : Bytes :=
  request 25 1 [(2, 1), (4, 4), (4, 77), (1, 130), (1, 1), (4, 4), (4, 3)]

def loadOwnerRecord (id : Nat) : Bytes :=
  request 26 1 [(4, id), (4, 40), (1, 1), (4, 90), (4, 95)]

theorem witness_ReloadMakesItsRecords :
    let bare := loading.setCat { loading.cat with snaps := [] }
    Takes (ask loading (loadVolumeRecord 8)) 24 (loadVolumeRecord 8) ∧
    Takes (ask bare loadSnapshotRecord) 25 loadSnapshotRecord ∧
    Takes (ask loading (loadOwnerRecord 0x12)) 26 (loadOwnerRecord 0x12) ∧
    (parseLoadVolume (loadVolumeRecord 8)).map LoadVolumeReq.fieldsOk = some true ∧
    (parseLoadVolume (loadVolumeRecord 9)).map LoadVolumeReq.fieldsOk = some false ∧
    loading.findVol 2 = none ∧ loading.vol 1 = none ∧ (loading.vol 0).isSome = true ∧
    (parseLoadSnapshot loadSnapshotRecord).map (fun q => (q.epoch, q.kindHold, q.buckets)) =
      some (4, 130, [⟨4, 3⟩]) ∧
    SnapKind.ofCode (130 % 128) = some .duplication ∧ bare.newest 0 = none ∧
    bare.findVol 1 = some (0, volume) ∧ loading.classOf 0x12 = some 0 ∧
    loading.findOwner 0x12 = none ∧ loading.findOwner 0x11 = some owner ∧
    (parseLoadOwner (loadOwnerRecord 0x11)).map (·.overridePresent) = some 1 :=
  ⟨takes_of (by decide), takes_of (by decide), takes_of (by decide),
    by decide⟩

theorem test_reload_records :
    ((after .loadVolume (ask loading (loadVolumeRecord 8))).vol 1).map (·.base) =
      some (some 8) ∧
    ((after .loadSnapshot (ask (loading.setCat { loading.cat with snaps := [] })
      loadSnapshotRecord)).findSnap 0 4).map (·.hold) = some true ∧
    last (after .loadOwner (ask loading (loadOwnerRecord 0x12))) =
      some (reply 26 1 .ok (.loadOwner 0 2)) := by
  decide

theorem witness_LoadDoneStartsService :
    let r := handleRecord 27 9
    Takes (ask loading r) 27 r ∧ parseNumber2 r = some 9 ∧
    Takes (ask loading (handleRecord 27 0)) 27 (handleRecord 27 0) ∧
    parseNumber2 (handleRecord 27 0) = some 0 ∧ loading.vol 0 = some volume :=
  ⟨takes_of (by decide), by decide, takes_of (by decide),
    by decide⟩

theorem test_load_done_removes_a_missing_base :
    let s := loading.putVol 0 (some { volume with base := some 3 })
    let t := after .loadDone (ask s (handleRecord 27 9))
    (t.vol 0).map (·.base) = some none ∧ t.part = .serving ∧ t.cat.lock = .opened ∧
    last t = some (reply 27 1 .ok (.loadDone 9 1 1 1 1 .opened .image)) := by
  decide

theorem witness_ReleaseLowersUsedAndRefusalsChangeNothing_refusals :
    let commit := fun (volume start : Nat) =>
      request 3 1 [(2, 7), (4, 0x11), (4, 12), (2, volume), (4, start), (2, 5)]
    let snap := amendRecord 5 0x100000004 5 2 0 1
    Takes (ask station (commit 0 0)) 3 (commit 0 0) ∧
    Takes (ask station (amendRecord 4 0 3 0 0 2)) 21 (amendRecord 4 0 3 0 0 2) ∧
    Takes (ask loading (loadVolumeRecord 9)) 24 (loadVolumeRecord 9) ∧
    Takes (ask loading loadSnapshotRecord) 25 loadSnapshotRecord ∧
    Takes (ask loading (loadOwnerRecord 0x20)) 26 (loadOwnerRecord 0x20) ∧
    (station.findVol 2 = none ∧ station.findVol 1 = some (0, volume) ∧
      volume.size < 996 + 5 ∧ volume.size = 995 + 5 ∧ station.entryByHandle 7 = some entry ∧
      entry.owner = 0x11 ∧ (parseCommit (commit 0 0)).map (·.volume) = some 0) ∧
    ((parseAmend (amendRecord 4 0 3 0 0 2)).map (fun q => (q.field, q.condition, q.value)) =
        some (3, 0, 2) ∧
      (parseAmend (amendRecord 4 0 1 0 0 2)).map (·.field) = some 1 ∧
      (parseAmend snap).map (fun q => (q.table, q.field, q.key / 4294967296)) =
        some (5, 5, 1) ∧
      (parseAmend snap).map (·.conditionHolds (BitVec.ofNat 32 snapshot.tag)) = some false ∧
      station.findSnap 0 4 = some snapshot ∧ station.findSnap 0 5 = none ∧
      station.findOwner 0x12 = none ∧ station.vol 7 = none) ∧
    (let full := slots8.foldl (fun s i => s.putVol i (some volume)) loading;
      (∀ i, (full.vol i).isSome = true) ∧ full.findVol 2 = none) ∧
    (loading.newest 0 = some 4 ∧ loading.findVol 1 = some (0, volume) ∧
      SnapKind.ofCode (3 % 128) = none ∧ birthsAscend [⟨4, 3⟩, ⟨4, 1⟩] = false) ∧
    loading.classOf 0x20 = none ∧ invalidOwner 0 = true ∧
    256 ≤ (List.replicate 256 snapshot).length :=
  ⟨takes_of (by decide), takes_of (by decide), takes_of (by decide), takes_of (by decide),
    takes_of (by decide), by decide, by decide, by decide, by decide, by decide, by decide,
    List.length_replicate.ge⟩

/-- R69: a volume ID of 0 is BAD_FIELD, in a COMMIT too. -/
theorem test_commit_to_volume_0 :
    last (after .commit (ask station (request 3 1
      [(2, 7), (4, 0x11), (4, 12), (2, 0), (4, 0), (2, 5)]))) =
    some (reply 3 1 .badField (.commit)) := by
  decide

/-! ### Frames, lists and invariants -/

theorem witness_CommandsChangeOnlyTheirBlocks :
    mayChange .deferralDeadline = some [.dup] ∧ exec .deferralDeadline station = .next station :=
  ⟨rfl, rfl⟩

theorem witness_JoinedExtentCoversItsBlocks :
    ListOk [⟨0, 65535⟩, ⟨65535, 3⟩, ⟨70000, 1⟩] ∧
    (joinExtent [⟨0, 65535⟩, ⟨65535, 3⟩, ⟨70000, 1⟩] ⟨65538, 4462⟩).list =
      [⟨0, 65535⟩, ⟨65535, 4466⟩] := by
  decide +kernel

theorem witness_invariants_hold_while_serving :
    QueuesBounded station ∧ OwnersOrdered station ∧ ModesAgree station ∧
    QuietOutsideActive station ∧ PacingBounded station ∧ RunningCounted station ∧
    RetainedCounted station ∧ PoolConserved station ∧ PoolConserved sending ∧
    ReservationTableOk station ∧ ReservedCounted station ∧ ReferencesCounted station := by
  refine ⟨?_, ?_, ?_, ?_, ?_, ?_, ?_, ?_, ?_, ?_, ?_, ?_⟩ <;> decide

/-- The station in the middle of a restore job of owner 11, whose entry holds its 8 blocks. -/
def restoring : State :=
  let s := withJob chargedJob
  { s with
    owners := [{ owner with reserved := 8 }],
    adm := { entries := [{ entry with blocks := 8, lease := none, origin := .restore 0 }],
             handleCounter := 7 },
    cat := { s.cat with snaps := [{ snapshot with refs := 1 }] },
    dup := { s.dup with running := 1 } }

theorem witness_invariants_hold_while_restoring :
    OwnersOrdered restoring ∧ RunningCounted restoring ∧ RetainedCounted restoring ∧
    ReservationTableOk restoring ∧ ReservedCounted restoring ∧ ReferencesCounted restoring := by
  refine ⟨?_, ?_, ?_, ?_, ?_, ?_⟩ <;> decide

theorem test_copied_keeps_the_reserved_sum :
    let t := after .copied (ask restoring (copiedRecord 0))
    ReservedCounted t ∧ ReferencesCounted t := by
  decide

/-- The station in LOADING with a volume as LOAD_VOLUME leaves it (R138), whose base was never loaded, and
a LOAD_DONE at the head of the queue. -/
def baseless : State :=
  let s := loading.putVol 0 (some { volume with base := some 3, fullScan := true, current := [] })
  ask (s.setPool 4096) (handleRecord 27 9)

theorem test_load_done_conserves_the_pool :
    PoolConserved baseless ∧ PoolConserved (after .loadDone baseless) ∧
    baseless.part ≠ .serving ∧ ((after .loadDone baseless).vol 0).map (·.base) = some none := by
  refine ⟨?_, ?_, ?_, ?_⟩ <;> decide

/-- The invariants are kept by a step that answers a next state: here one millisecond passes. -/
theorem witness_StepKeepsTheInvariants :
    step State.reset = .next State.reset.tick := rfl

end Sys2Proof.Tests
end

/-! PROOFS. The frame of each command: which blocks its rule may change, from the frames of the
shared operations. The invariants and the functional statements use it for every block that a
command leaves alone. -/

namespace Sys2Proof.Proofs

open Sys2Proof.Machine Sys2Proof.Safety

variable {l l' : List Block} {s t u : State}

/-! ### The calculus -/

/-- A step inside a larger set of blocks. -/
theorem within (sub : l' ⊆ l) (h : ChangesOnly l' s t) : ChangesOnly l s t := h.mono sub

/-- A further step that keeps to the blocks of the first ones. -/
theorem andThen (sub : l' ⊆ l) (h : ChangesOnly l s t) (k : ChangesOnly l' t u) :
    ChangesOnly l s u := h.trans (k.mono sub)

/-- A further step that a condition decides on. -/
theorem thenIf {p : Prop} [Decidable p] (sub : l' ⊆ l) (h : ChangesOnly l s t)
    (k : ChangesOnly l' t u) : ChangesOnly l s (if p then u else t) :=
  .ite (fun _ => andThen sub h k) fun _ => h

/-- A further step unless a condition holds. -/
theorem thenUnless {p : Prop} [Decidable p] (sub : l' ⊆ l) (h : ChangesOnly l s t)
    (k : ChangesOnly l' t u) : ChangesOnly l s (if p then t else u) :=
  .ite (fun _ => h) fun _ => andThen sub h k

theorem answered_within (hp : [Block.port] ⊆ l) {kind tag : Nat} {st : Status} {b : Body} :
    ChangesOnly l s (s.answer kind tag st b) := (answer_changes ..).mono hp

/-- What a command does while RST is released: nothing, or its rule. -/
theorem next_of_whenReleased {f : State → State} (h : whenReleased s f = .next t) :
    (s.rst = true ∧ t = s) ∨ (s.rst = false ∧ t = f s) := by
  unfold whenReleased at h
  cases h
  cases s.rst
  · exact .inr ⟨rfl, rfl⟩
  · exact .inl ⟨rfl, rfl⟩

theorem whenReleased_changes {f : State → State} (hf : ChangesOnly l s (f s))
    (h : whenReleased s f = .next t) : ChangesOnly l s t := by
  obtain ⟨-, rfl⟩ | ⟨-, rfl⟩ := next_of_whenReleased h
  · exact .refl _ _
  · exact hf

/-- The frame of a request's command is the frame of its rule and the port. -/
theorem request_changes {α : Type} {kind : Nat} {parse : Bytes → Option α} {blank : Body}
    {carry : Nat → α → State → State} (hp : Block.port ∈ l)
    (rule : ∀ tag q s, ChangesOnly l s (carry tag q s))
    (h : whenReleased s (takeRequest kind parse blank carry) = .next t) : ChangesOnly l s t :=
  whenReleased_changes (takeRequest_changes kind parse blank carry hp rule s) h

/-! ### Quota and admission -/

theorem reserveRequest_changes (tag : Nat) (q : ReserveReq) (s : State) :
    ChangesOnly [.owners, .adm, .port] s (reserveRequest tag q s) := by
  unfold reserveRequest
  refine .ite (fun _ => answered_within (by decide)) fun _ => .ite
    (fun _ => answered_within (by decide)) fun _ => ?_
  split
  · exact answered_within (by decide)
  · exact andThen (by decide) (within (by decide) (admit_changes ..)) (answer_changes ..)

theorem renewRequest_changes (tag handle : Nat) (s : State) :
    ChangesOnly [.adm, .port] s (renewRequest tag handle s) := by
  unfold renewRequest
  refine .ite (fun _ => answered_within (by decide)) fun _ => ?_
  split
  · exact answered_within (by decide)
  · exact .ite (fun _ => andThen (by decide) (within (by decide) (setAdm_changes ..))
      (answer_changes ..)) fun _ =>
      answered_within (by decide)

theorem cancelRequest_changes (tag handle : Nat) (s : State) :
    ChangesOnly [.owners, .adm, .port] s (cancelRequest tag handle s) := by
  unfold cancelRequest
  refine .ite (fun _ => answered_within (by decide)) fun _ => ?_
  split
  · exact answered_within (by decide)
  · exact .ite (fun _ => andThen (by decide) (within (by decide) (removeEntry_changes ..))
      (answer_changes ..)) fun _ =>
      answered_within (by decide)

theorem appendExtent_changes (s : State) (volume start length : Nat) :
    ChangesOnly [.cat, .pool, .port] s (s.appendExtent volume start length) := by
  unfold State.appendExtent
  split
  · exact .refl _ _
  · exact .ite (fun _ => .refl _ _) fun _ => appendCurrent_changes ..

theorem finishCommit_changes (s : State) (tag : Nat) (q : CommitReq) (st : Status)
    (charged used : Nat) (quota : QuotaState) :
    ChangesOnly night s (s.finishCommit tag q st charged used quota) :=
  andThen (by decide) (andThen (by decide) (within (by decide) (appendExtent_changes ..))
    (answer_changes ..)) (issueIfFreed_changes ..)

/-- What a COMMIT can change. -/
abbrev commitBlocks : List Block := [.owners, .adm, .link, .cat, .pool, .dup, .port]

theorem commitEntry_changes (tag : Nat) (q : CommitReq) (e : Reservation) (s : State) :
    ChangesOnly commitBlocks s (commitEntry tag q e s) :=
  andThen (by decide) (andThen (by decide) (within (by decide) (removeEntry_changes ..))
    (usedChanged_changes ..))
    (finishCommit_changes ..)

theorem commitLate_changes (tag : Nat) (q : CommitReq) (s : State) :
    ChangesOnly commitBlocks s (commitLate tag q s) := by
  unfold commitLate
  split
  · exact within (by decide) (finishCommit_changes ..)
  · dsimp only
    refine andThen (by decide) (l' := commitBlocks)
      (within (by decide) (raise_changes s .lateCommit q.owner.toNat)) ?_
    split
    · exact within (by decide) (finishCommit_changes ..)
    · rename_i h
      exact andThen (by decide) (andThen (by decide) (andThen (by decide) (within (by decide)
        (ensureOwner_changes _ _ _ h)) (touchOwner_changes ..))
        (usedChanged_changes ..)) (finishCommit_changes ..)

theorem commitRequest_changes (tag : Nat) (q : CommitReq) (s : State) :
    ChangesOnly commitBlocks s (commitRequest tag q s) := by
  unfold commitRequest
  refine .ite (fun _ => answered_within (by decide)) fun _ => ?_
  split
  · exact answered_within (by decide)
  · split
    · exact commitLate_changes ..
    · exact .ite (fun _ => answered_within (by decide)) fun _ => commitEntry_changes ..

theorem releaseQuota_changes (s : State) (id : OwnerId) (b : Nat) :
    ChangesOnly [.owners, .link, .port] s (s.releaseQuota id b) := by
  unfold State.releaseQuota
  split
  · exact .refl _ _
  · exact andThen (by decide) (.ite (fun _ => andThen (by decide) (within (by decide)
      (touchOwner_changes ..)) (raise_changes ..)) fun _ =>
      within (by decide) (touchOwner_changes ..)) (usedChanged_changes ..)

theorem releaseRetention_changes (s : State) (i : Fin 8) (v : Volume) (birth c : Nat) :
    ChangesOnly [.cat, .port] s (s.releaseRetention i v birth c).2.2 := by
  unfold State.releaseRetention
  split
  · exact .refl _ _
  · split
    · exact .refl _ _
    · dsimp only
      split
      · exact .refl _ _
      · exact andThen (by decide) (within (by decide) (retainBlocks_changes ..))
          (modifyVol_changes ..)

/-- What a RELEASE can change. -/
abbrev releaseBlocks : List Block := [.owners, .link, .cat, .pool, .dup, .port]

theorem releaseRequest_changes (tag : Nat) (q : ReleaseReq) (s : State) :
    ChangesOnly releaseBlocks s (releaseRequest tag q s) := by
  unfold releaseRequest
  refine .ite (fun _ => answered_within (by decide)) fun _ => ?_
  split
  · exact answered_within (by decide)
  · refine .ite (fun _ => answered_within (by decide)) fun _ => ?_
    dsimp only
    refine andThen (by decide) ?_ (issueIfFreed_changes ..)
    exact thenUnless (by decide) (andThen (by decide) (andThen (by decide) (andThen (by decide)
      (within (by decide) (releaseQuota_changes ..))
      (releaseRetention_changes ..)) (appendExtent_changes ..)) (answer_changes ..))
      (evaluate_changes ..)

/-! ### Snapshot Catalogue -/

theorem makeSnapshot_changes (s : State) (i : Fin 8) (v : Volume) (kind : SnapKind) (label : Nat) :
    ChangesOnly [.cat] s (s.makeSnapshot i v kind label) :=
  (setCat_changes ..).trans (putVol_changes ..)

theorem cutVolume_changes (s : State) (i : Fin 8) (v : Volume) (epoch : Nat) :
    ChangesOnly [.cat, .pool] s (s.cutVolume i v epoch) := by
  unfold State.cutVolume
  dsimp only
  refine andThen (by decide) (andThen (by decide) (andThen (by decide) ?_ (putVol_changes ..))
    (setPool_changes ..)) (testEnd_changes ..)
  split
  · exact andThen (by decide) (within (by decide) (takeRef_changes ..)) (giveRef_changes ..)
  · exact within (by decide) (takeRef_changes ..)

theorem snapshotRequest_changes (tag : Nat) (q : SnapshotReq) (s : State) :
    ChangesOnly night s (snapshotRequest tag q s) := by
  unfold snapshotRequest
  split
  · exact answered_within (by decide)
  refine .ite (fun _ => answered_within (by decide)) fun _ => ?_
  split
  · exact answered_within (by decide)
  split
  · exact answered_within (by decide)
  · refine .ite (fun _ => ?_) fun _ =>
      andThen (by decide) (within (by decide) (makeSnapshot_changes ..)) (answer_changes ..)
    exact andThen (by decide) (thenIf (by decide) (andThen (by decide) (andThen (by decide)
      (andThen (by decide) (within (by decide) (makeSnapshot_changes ..))
      (cutVolume_changes ..)) (answer_changes ..)) (dupEndStep_changes ..))
      (evaluateIfOver_changes ..)) (issuePass_changes ..)

theorem deleteRequest_changes (tag : Nat) (q : DeleteReq) (s : State) :
    ChangesOnly [.cat, .port] s (deleteRequest tag q s) := by
  unfold deleteRequest
  refine .ite (fun _ => answered_within (by decide)) fun _ => ?_
  split
  · exact answered_within (by decide)
  split
  · exact answered_within (by decide)
  · exact .ite (fun _ => andThen (by decide) (deletionStep_changes ..) (answer_changes ..)) fun _ =>
      answered_within (by decide)

theorem markRequest_changes (kind : Nat) (locked : State → Bool) (read : Snapshot → Bool)
    (write : Snapshot → Bool → Snapshot) (tag : Nat) (q : MarkReq) (s : State) :
    ChangesOnly [.cat, .port] s (markRequest kind locked read write tag q s) := by
  unfold markRequest
  refine .ite (fun _ => answered_within (by decide)) fun _ => ?_
  split
  · exact answered_within (by decide)
  split
  · exact answered_within (by decide)
  · refine .ite (fun _ => answered_within (by decide)) fun _ => ?_
    dsimp only
    exact thenIf (by decide) (andThen (by decide) (within (by decide) (modifySnap_changes ..))
      (answer_changes ..))
      (evaluateIfOver_changes ..)

theorem lockRequest_changes (tag : Nat) (x : Unit) (s : State) :
    ChangesOnly [.cat, .port] s (lockRequest tag x s) :=
  andThen (by decide) (l' := [.port])
    (.ite (fun _ => within (by decide) (setCat_changes ..)) fun _ => .refl _ _) (answer_changes ..)

/-! ### Restore Controller -/

theorem openRequest_changes (tag : Nat) (q : OpenReq) (s : State) :
    ChangesOnly [.rsc, .cat, .port] s (openRequest tag q s) := by
  unfold openRequest
  refine .ite (fun _ => answered_within (by decide)) fun _ => ?_
  split
  · refine .ite (fun _ => answered_within (by decide)) fun _ => ?_
    split
    · exact answered_within (by decide)
    · exact andThen (by decide) (andThen (by decide) (andThen (by decide) (within (by decide)
        (putContext_changes ..)) (takeRef_changes ..))
        (setRsc_changes ..)) (answer_changes ..)
  · exact answered_within (by decide)

/-- The end of a job that never ran: its context freed, a record, and the evaluation that follows.
-/
theorem freeAnswerEvaluate_changes (s : State) (c : Fin 4) (x : Context) (kind tag : Nat)
    (st : Status) (b : Body) (i : Fin 8) : ChangesOnly [.rsc, .cat, .port] s
      (((s.freeContext c x).answer kind tag st b).evaluateIfOver i) :=
  andThen (by decide) (andThen (by decide) (within (by decide) (freeContext_changes ..))
    (answer_changes ..)) (evaluateIfOver_changes ..)

theorem itemRequest_changes (tag : Nat) (q : ItemReq) (s : State) :
    ChangesOnly [.rsc, .cat, .port] s (itemRequest tag q s) := by
  unfold itemRequest
  refine .ite (fun _ => answered_within (by decide)) fun _ => ?_
  split
  · exact answered_within (by decide)
  · refine .ite (fun _ => answered_within (by decide)) fun _ => ?_
    split
    · exact freeAnswerEvaluate_changes ..
    · exact andThen (by decide) (within (by decide) (putContext_changes ..)) (answer_changes ..)

theorem startJob_changes (s : State) (c : Fin 4) (x : Context) (handle : Option Nat) :
    ChangesOnly [.rsc, .dup] s (s.startJob c x handle) :=
  andThen (by decide) (within (by decide) (putContext_changes ..)) (restoreStarts_changes ..)

/-- What a RESTORE_GO can change. -/
abbrev goBlocks : List Block := [.owners, .adm, .rsc, .cat, .dup, .port]

theorem goTracked_changes (tag : Nat) (c : Fin 4) (x : Context) (cls : Fin 8) (s : State) :
    ChangesOnly goBlocks s (goTracked tag c x cls s) := by
  unfold goTracked
  dsimp only
  have admitted := admit_changes s x.owner cls (x.items.map (·.length)).sum
    (s.volumeId x.targetSlot) (.restore c)
  refine .ite (fun _ => ?_) fun _ => ?_
  · exact andThen (by decide) (andThen (by decide) (andThen (by decide)
      (within (by decide) admitted) (startJob_changes ..)) (answer_changes ..))
      (placeCopies_changes ..)
  · exact andThen (by decide) (within (by decide) admitted) (freeAnswerEvaluate_changes ..)

theorem goRequest_changes (tag : Nat) (q : JobReq) (s : State) :
    ChangesOnly goBlocks s (goRequest tag q s) := by
  unfold goRequest
  refine .ite (fun _ => answered_within (by decide)) fun _ => ?_
  split
  · exact answered_within (by decide)
  · refine .ite (fun _ => answered_within (by decide)) fun _ => .ite (fun _ => ?_) fun _ => ?_
    · exact within (by decide) (freeAnswerEvaluate_changes ..)
    · split
      · exact goTracked_changes ..
      · exact andThen (by decide) (andThen (by decide) (within (by decide) (startJob_changes ..))
          (answer_changes ..))
          (placeCopies_changes ..)

theorem cancelJobRequest_changes (tag : Nat) (q : JobReq) (s : State) :
    ChangesOnly jobEnd s (cancelJobRequest tag q s) := by
  unfold cancelJobRequest
  refine .ite (fun _ => answered_within (by decide)) fun _ => ?_
  split
  · exact answered_within (by decide)
  · split
    · exact within (by decide) (freeAnswerEvaluate_changes ..)
    · exact andThen (by decide) (andThen (by decide) (andThen (by decide) (within (by decide)
        (putContext_changes ..)) (testJobEnd_changes ..))
        (answer_changes ..)) (restoreEndStep_changes ..)
    · exact andThen (by decide) (andThen (by decide) (within (by decide) (testJobEnd_changes ..))
        (answer_changes ..))
        (restoreEndStep_changes ..)

theorem chargeRestore_changes (s : State) (x : Context) (n : Nat) :
    ChangesOnly [.owners, .adm, .link] s (s.chargeRestore x n) := by
  unfold State.chargeRestore
  split
  · exact .refl _ _
  · exact andThen (by decide) (andThen (by decide) (within (by decide) (setAdm_changes ..))
      (touchOwner_changes ..))
      (usedChanged_changes ..)

/-- What a COPIED can change. -/
abbrev copiedBlocks : List Block := [.owners, .adm, .link, .rsc, .cat, .pool, .dup, .port]

theorem copiedRequest_changes (tag : Nat) (q : CopiedReq) (s : State) :
    ChangesOnly copiedBlocks s (copiedRequest tag q s) := by
  unfold copiedRequest
  refine .ite (fun _ => answered_within (by decide)) fun _ => ?_
  split
  · exact answered_within (by decide)
  split
  · exact answered_within (by decide)
  · refine .ite (fun _ => answered_within (by decide)) fun _ => ?_
    dsimp only
    refine andThen (by decide) ?_ (issueIfFreed_changes ..)
    refine thenIf (by decide) (andThen (by decide) (andThen (by decide) (andThen (by decide) ?_
      (testJobEnd_changes ..)) (answer_changes ..))
      (restoreEndStep_changes ..)) (placeCopies_changes ..)
    exact thenIf (by decide) (within (by decide) (putContext_changes ..)) (l' := copiedBlocks)
      (andThen (by decide) (within (by decide) (chargeRestore_changes ..))
        (appendCurrent_changes ..))

/-! ### Duplication Scheduler -/

theorem sentRequest_changes (tag : Nat) (q : SentReq) (s : State) :
    ChangesOnly night s (sentRequest tag q s) := by
  unfold sentRequest
  refine .ite (fun _ => answered_within (by decide)) fun _ => ?_
  split
  · exact answered_within (by decide)
  · exact andThen (by decide) (andThen (by decide) (andThen (by decide) (andThen (by decide)
      (andThen (by decide) (andThen (by decide) (answerTicket_changes ..)
      (answer_changes ..)) (testEnd_changes ..)) (dupEndStep_changes ..)) (closeIfDone_changes ..))
      (flushEvent_changes ..)) (issuePass_changes ..)

theorem duplicateNowRequest_changes (tag volume : Nat) (s : State) :
    ChangesOnly [.cat, .port] s (duplicateNowRequest tag volume s) := by
  unfold duplicateNowRequest
  refine .ite (fun _ => answered_within (by decide)) fun _ => ?_
  split
  · exact answered_within (by decide)
  · exact .ite (fun _ => answered_within (by decide)) fun _ => .ite
      (fun _ => answered_within (by decide)) fun _ =>
      andThen (by decide) (andThen (by decide) (within (by decide) (putVol_changes ..))
        (answer_changes ..)) (placeCuts_changes ..)

/-- What a change of the minute can change. -/
abbrev minuteBlocks : List Block := [.time, .cat, .pool, .dup, .port]

theorem clockRequest_changes (tag minute : Nat) (s : State) :
    ChangesOnly minuteBlocks s (clockRequest tag minute s) := by
  unfold clockRequest
  refine .ite (fun _ => answered_within (by decide)) fun _ => ?_
  exact andThen (by decide) (andThen (by decide) (andThen (by decide) (within (by decide)
    (setTime_changes ..)) (minuteChanged_changes ..))
    (answer_changes ..)) (afterMinute_changes ..)

/-! ### Link, INSPECT, AMEND and the reload -/

theorem forgetRequest_changes (tag station : Nat) (s : State) :
    ChangesOnly [.link, .port] s (forgetRequest tag station s) := by
  unfold forgetRequest
  split
  · refine .ite (fun _ => answered_within (by decide)) fun _ => .ite
      (fun _ => answered_within (by decide)) fun _ =>
      .ite (fun _ => answered_within (by decide)) fun _ => ?_
    exact andThen (by decide) (within (by decide) (putPeer_changes ..)) (setLink_changes ..)
  · exact answered_within (by decide)

theorem inspectRequest_changes (tag : Nat) (q : InspectReq) (s : State) :
    ChangesOnly [.owners, .port] s (inspectRequest tag q s) := by
  unfold inspectRequest
  refine .ite (fun _ => answered_within (by decide)) fun _ => ?_
  dsimp only
  split
  · exact answered_within (by decide)
  · exact answered_within (by decide)
  · exact .ite (fun _ => answered_within (by decide)) fun _ =>
      andThen (by decide) (within (by decide) (inspected_changes ..)) (answerPart_changes ..)

theorem amendOwner_changes (tag : Nat) (q : AmendReq) (soft : Bool) (s : State) :
    ChangesOnly [.owners, .port] s (amendOwner tag q soft s) := by
  unfold amendOwner
  refine .ite (fun _ => answered_within (by decide)) fun _ => ?_
  split
  · exact answered_within (by decide)
  · refine .ite (fun _ => ?_) fun _ => answered_within (by decide)
    exact andThen (by decide) (l' := [.port])
      (.ite (fun _ => within (by decide) (touchOwner_changes ..)) fun _ => .refl _ _)
        (answer_changes ..)

theorem amendVolume_changes (tag : Nat) (q : AmendReq) (f : AmendField) (s : State) :
    ChangesOnly [.cat, .port] s (amendVolume tag q f s) := by
  unfold amendVolume
  split
  · refine .ite (fun _ => answered_within (by decide)) fun _ => ?_
    split
    · exact answered_within (by decide)
    · refine .ite (fun _ => .ite (fun _ => answered_within (by decide)) fun _ => ?_)
        fun _ => answered_within (by decide)
      exact thenIf (by decide) (andThen (by decide) (within (by decide) (putVol_changes ..))
        (answer_changes ..)) (evaluate_changes ..)
  · exact answered_within (by decide)

theorem amendSnapshot_changes (tag : Nat) (q : AmendReq) (s : State) :
    ChangesOnly [.cat, .port] s (amendSnapshot tag q s) := by
  unfold amendSnapshot
  refine .ite (fun _ => answered_within (by decide)) fun _ => ?_
  split
  · exact answered_within (by decide)
  split
  · exact answered_within (by decide)
  · exact .ite (fun _ => andThen (by decide) (within (by decide) (modifySnap_changes ..))
      (answer_changes ..)) fun _ =>
      answered_within (by decide)

theorem amendRequest_changes (tag : Nat) (q : AmendReq) (s : State) :
    ChangesOnly [.owners, .cat, .port] s (amendRequest tag q s) := by
  unfold amendRequest
  refine .ite (fun _ => answered_within (by decide)) fun _ => ?_
  split
  · exact answered_within (by decide)
  · exact within (by decide) (amendOwner_changes ..)
  · exact within (by decide) (amendOwner_changes ..)
  · exact within (by decide) (amendSnapshot_changes ..)
  · exact within (by decide) (amendVolume_changes ..)

theorem loadVolumeRequest_changes (tag : Nat) (q : LoadVolumeReq) (s : State) :
    ChangesOnly [.cat, .port] s (loadVolumeRequest tag q s) := by
  unfold loadVolumeRequest
  refine .ite (fun _ => answered_within (by decide)) fun _ => ?_
  split
  · exact answered_within (by decide)
  · exact andThen (by decide) (within (by decide) (putVol_changes ..)) (answer_changes ..)

theorem loadSnapshotRequest_changes (tag : Nat) (q : LoadSnapshotReq) (s : State) :
    ChangesOnly [.cat, .port] s (loadSnapshotRequest tag q s) := by
  unfold loadSnapshotRequest
  split
  · exact answered_within (by decide)
  refine .ite (fun _ => answered_within (by decide)) fun _ => ?_
  split
  · exact answered_within (by decide)
  · refine .ite (fun _ => answered_within (by decide)) fun _ => .ite
      (fun _ => answered_within (by decide)) fun _ => ?_
    exact andThen (by decide) (andThen (by decide) (within (by decide) (setCat_changes ..))
      (putVol_changes ..)) (answer_changes ..)

theorem loadOwner_changes {q : LoadOwnerReq} {cls : Fin 8} (h : s.loadOwner q cls = some t) :
    ChangesOnly [.owners] s t := by
  unfold State.loadOwner at h
  split at h
  · cases h; exact touchOwner_changes ..
  · exact addOwner_changes _ _ h

theorem loadOwnerRequest_changes (tag : Nat) (q : LoadOwnerReq) (s : State) :
    ChangesOnly [.owners, .port] s (loadOwnerRequest tag q s) := by
  unfold loadOwnerRequest
  refine .ite (fun _ => answered_within (by decide)) fun _ => ?_
  split
  · exact answered_within (by decide)
  split
  · exact answered_within (by decide)
  · rename_i h
    exact andThen (by decide) (within (by decide) (loadOwner_changes h)) (answer_changes ..)

/-! ### Timer, port and link steps -/

theorem shiftStatus_changes (s : State) (more : Bytes) : ChangesOnly [.port] s
  (s.shiftStatus more) :=
  setPort_changes ..

theorem acceptRecord_changes (s : State) (bytes : Bytes) :
    ChangesOnly [.port] s (s.acceptRecord bytes) :=
  .ite (fun _ => setPort_changes ..) fun _ => setPort_changes ..

theorem frameSent_changes (s : State) : ChangesOnly [.link, .owners] s s.frameSent := by
  unfold State.frameSent
  refine .ite (fun _ => within (by decide) (setLink_changes ..)) fun _ => ?_
  exact andThen (by decide) (andThen (by decide) (within (by decide) (recordSend_changes ..))
    (setLink_changes ..))
    (composeUsage_changes ..)

theorem giveUp_changes (s : State) : ChangesOnly [.link, .port] s s.giveUp := by
  unfold State.giveUp
  refine andThen (by decide) (andThen (by decide) (andThen (by decide) (andThen (by decide) (l' :=
    [.link]) ?_ (setLink_changes ..))
    (raise_changes ..)) (flushEvent_changes ..)) (takeSlot_changes ..)
  exact .ite (fun _ => within (by decide) (setLink_changes ..)) fun _ => within (by decide)
    (setLink_changes ..)

theorem peerFrame_changes (s : State) (i : Fin 16) (f : Frame) (burst : Bytes) :
    ChangesOnly [.link, .owners, .port] s (s.peerFrame i f burst) := by
  unfold State.peerFrame
  refine .ite (fun _ => .refl _ _) fun _ => ?_
  exact thenIf (by decide) (within (by decide) (putPeer_changes ..)) (l' := [.owners, .port])
    (andThen (by decide) (.foldl (fun s e => usageEntry_changes ..) _ _) (flushEvent_changes ..))

theorem linkError_changes (s : State) (n : Nat) : ChangesOnly [.port] s (s.linkError n) :=
  (raise_changes ..).trans (flushEvent_changes ..)

theorem stationConflict_changes (s : State) : ChangesOnly [.link, .port] s s.stationConflict :=
  thenIf (by decide) (andThen (by decide) (within (by decide) (raise_changes ..))
    (flushEvent_changes ..)) (setLink_changes ..)

theorem announceSlots_changes (s : State) : ChangesOnly [.link] s s.announceSlots := by
  unfold State.announceSlots
  refine thenIf (by decide) (l' := [.link]) (thenIf (by decide) (.refl _ _) (setLink_changes ..)) ?_
  exact ((fillAnnounce_changes _).trans (composeUsage_changes _)).trans (takeSlot_changes _)

theorem sweepVisit_changes (s : State) (w : Sweep) (o : Owner) :
    ChangesOnly [.link, .owners] s (s.sweepVisit w o) :=
  thenIf (by decide) (within (by decide) (setLink_changes ..)) (touchOwner_changes ..)

theorem sweepEnd_changes (s : State) (w : Sweep) : ChangesOnly [.link, .port] s (s.sweepEnd w) :=
  andThen (by decide) (andThen (by decide) (within (by decide) (putPeer_changes ..))
    (setLink_changes ..)) (answer_changes ..)

theorem read_changes (clocked : Nat) (h : execRead clocked s = .next t) :
    ChangesOnly jobEnd s t := by
  refine whenReleased_changes ?_ h
  refine .ite (fun _ => within (by decide) (shiftStatus_changes ..)) fun _ => ?_
  split
  · exact within (by decide) (shiftStatus_changes ..)
  · refine .ite (fun _ => ?_) fun _ => within (by decide) (shiftStatus_changes ..)
    exact thenIf (by decide) (andThen (by decide) (within (by decide) (shiftStatus_changes ..))
      (setPort_changes ..)) (roomArrives_changes _)

theorem leaseExpiry_changes (slot : Nat) (h : execLeaseExpiry slot s = .next t) :
    ChangesOnly [.owners, .adm, .port] s t := by
  refine whenReleased_changes ?_ h
  split
  · exact .refl _ _
  · exact .ite (fun _ => andThen (by decide) (andThen (by decide) (within (by decide)
      (removeEntry_changes ..)) (raise_changes ..))
      (flushEvent_changes ..)) fun _ => .refl _ _

theorem minuteAdvance_changes
  (h : execMinuteAdvance s = .next t) : ChangesOnly minuteBlocks s t := by
  refine whenReleased_changes ?_ h
  split
  · exact .ite (fun _ => andThen (by decide) (andThen (by decide) (within (by decide)
      (setTime_changes ..)) (minuteChanged_changes ..))
      (afterMinute_changes ..)) fun _ => .refl _ _
  · exact .refl _ _

theorem announceTimer_changes (h : execAnnounceTimerExpiry s = .next t) :
    ChangesOnly [.link, .cat, .pool, .dup, .port] s t := by
  refine whenReleased_changes ?_ h
  split
  · exact .refl _ _
  · exact .ite (fun _ => andThen (by decide) (andThen (by decide) (andThen (by decide)
      (andThen (by decide) (andThen (by decide) (within (by decide) (setLink_changes ..))
      (recomputeShare_changes ..)) (testAtRisk_changes ..)) (flushEvent_changes ..))
      (issuePass_changes ..)) (announceSlots_changes ..)) fun _ => .refl _ _

theorem frameReceived_changes (burst : Bytes) (h : execFrameReceived burst s = .next t) :
    ChangesOnly [.link, .owners, .port] s t := by
  refine whenReleased_changes ?_ h
  refine .ite (fun _ => .refl _ _) fun _ => .ite (fun _ => within (by decide)
    (linkError_changes ..)) fun _ =>
    .ite (fun _ => within (by decide) (linkError_changes ..)) fun _ =>
    .ite (fun _ => within (by decide) (stationConflict_changes ..)) fun _ => ?_
  split
  · exact peerFrame_changes ..
  · exact .refl _ _

/-- Every command with a frame of its own keeps to it: the blocks that it does not name, the part
state, the lines, the straps, the image and the waiting commands stand. -/
theorem exec_changes (c : Instr) (hl : mayChange c = some l) (h : exec c s = .next t) :
    ChangesOnly l s t := by
  cases c <;> (simp only [mayChange] at hl) <;> cases hl <;> simp only [exec] at h
  case status => exact whenReleased_changes (shiftStatus_changes ..) h
  case write bytes =>
    refine whenReleased_changes ?_ h
    exact .ite (fun _ => shiftStatus_changes ..) fun _ =>
      (shiftStatus_changes ..).trans (acceptRecord_changes ..)
  case read => exact read_changes _ h
  case reserve => exact request_changes (by decide) reserveRequest_changes h
  case renew => exact request_changes (by decide) renewRequest_changes h
  case cancel => exact request_changes (by decide) cancelRequest_changes h
  case commit => exact request_changes (by decide) commitRequest_changes h
  case release => exact request_changes (by decide) releaseRequest_changes h
  case snapshot => exact request_changes (by decide) snapshotRequest_changes h
  case deleteSnapshot => exact request_changes (by decide) deleteRequest_changes h
  case expiryWaitingEvaluation => exact whenReleased_changes (evaluateWaiting_changes _) h
  case hold => exact request_changes (by decide) (markRequest_changes 8 _ _ _) h
  case pin => exact request_changes (by decide) (markRequest_changes 9 _ _ _) h
  case lockHolds => exact request_changes (by decide) lockRequest_changes h
  case restoreOpen => exact request_changes (by decide) openRequest_changes h
  case restoreItem => exact request_changes (by decide) itemRequest_changes h
  case restoreGo => exact request_changes (by decide) goRequest_changes h
  case restoreCancel => exact request_changes (by decide) cancelJobRequest_changes h
  case copied => exact request_changes (by decide) copiedRequest_changes h
  case copyNotice => exact whenReleased_changes (placeCopies_changes _) h
  case assemblyDeadline => exact whenReleased_changes (modifyContext_changes ..) h
  case assemblyTimeout => exact whenReleased_changes (assemblyTimeout_changes ..) h
  case restoreEndStep => exact whenReleased_changes (restoreEndStep_changes ..) h
  case sent => exact request_changes (by decide) sentRequest_changes h
  case duplicateNow => exact request_changes (by decide) duplicateNowRequest_changes h
  case clock => exact request_changes (by decide) clockRequest_changes h
  case minuteAdvance => exact minuteAdvance_changes h
  case windowClosed =>
    exact whenReleased_changes (andThen (by decide) (closeIfDone_changes _)
      (flushEvent_changes _)) h
  case cutNotice => exact whenReleased_changes (placeCuts_changes _) h
  case cutTimeout slot =>
    refine whenReleased_changes ?_ h
    split
    · exact .refl _ _
    · exact .ite (fun _ => andThen (by decide) (andThen (by decide) (within (by decide)
        (putVol_changes ..)) (raise_changes ..))
        (flushEvent_changes ..)) fun _ => .refl _ _
  case issuePass => exact whenReleased_changes (issuePass_changes _) h
  case tokenGain =>
    exact whenReleased_changes (.ite (fun _ => andThen (by decide) (andThen (by decide)
      (within (by decide) (setTime_changes ..))
      (setDup_changes ..)) (issuePass_changes _)) fun _ => .refl _ _) h
  case deferralDeadline =>
    exact whenReleased_changes (.ite (fun _ => setDup_changes ..) fun _ => .refl _ _) h
  case dupEndStep => exact whenReleased_changes (dupEndStep_changes ..) h
  case forgetStation => exact request_changes (by decide) forgetRequest_changes h
  case forgetSweepVisit =>
    refine whenReleased_changes ?_ h
    split
    · exact .refl _ _
    split
    · exact .refl _ _
    · exact .ite (fun _ => sweepVisit_changes ..) fun _ => .refl _ _
  case forgetSweepEnd =>
    refine whenReleased_changes ?_ h
    split
    · exact .refl _ _
    · exact .ite (fun _ => sweepEnd_changes ..) fun _ => .refl _ _
  case inspect => exact request_changes (by decide) inspectRequest_changes h
  case amend => exact request_changes (by decide) amendRequest_changes h
  case events =>
    exact request_changes (by decide) (fun _ _ _ => (setPort_changes ..).trans
      (answer_changes ..)) h
  case eventPendingNotice => exact whenReleased_changes (flushEvent_changes _) h
  case loadVolume => exact request_changes (by decide) loadVolumeRequest_changes h
  case loadSnapshot => exact request_changes (by decide) loadSnapshotRequest_changes h
  case loadOwner => exact request_changes (by decide) loadOwnerRequest_changes h
  case leaseExpiry => exact leaseExpiry_changes _ h
  case warmUpEnd =>
    refine whenReleased_changes ?_ h
    split
    · exact .refl _ _
    · exact .ite (fun _ => touchOwner_changes ..) fun _ => .refl _ _
  case graceDeadlineExpiry =>
    refine whenReleased_changes ?_ h
    split
    · exact .refl _ _
    · exact .ite (fun _ => touchOwner_changes ..) fun _ => .refl _ _
  case announceTimerExpiry => exact announceTimer_changes h
  case peerStaleDeadline =>
    exact whenReleased_changes (.ite (fun _ => putPeer_changes ..) fun _ => .refl _ _) h
  case transmitAttemptStart =>
    refine whenReleased_changes ?_ h
    split
    · exact .refl _ _
    · exact .ite (fun _ => setLink_changes ..) fun _ => .refl _ _
  case attemptSuccess =>
    exact whenReleased_changes (.ite (fun _ => andThen (by decide) (frameSent_changes _)
      (takeSlot_changes _))
      fun _ => .refl _ _) h
  case collision =>
    exact whenReleased_changes (.ite (fun _ => .ite (fun _ => giveUp_changes _) fun _ =>
      within (by decide) (setLink_changes ..)) fun _ => .refl _ _) h
  case backoffExpiry => exact whenReleased_changes (setLink_changes ..) h
  case frameReceived => exact frameReceived_changes _ h
  case kindNumberOutOfRange =>
    refine whenReleased_changes ?_ h
    split
    · exact .refl _ _
    · exact .ite (fun _ => (dropHead_changes _).trans (answer_changes ..)) fun _ => .refl _ _

end Sys2Proof.Proofs

/-! PROOFS. The bounds of the two queues of the server port (R164, R166 to R168): an answer is
placed where a slot is free, a notice where there is notice room, and nothing else makes the
completion queue longer. -/

namespace Sys2Proof.Proofs

open Sys2Proof.Machine Sys2Proof.Safety

variable {l : List Block} {s t u : State} {n : Nat}

/-! ### The step -/

/-- What every command and the passing of a millisecond keep, every step keeps. -/
theorem step_keeps {P : State → Prop} (pending : ∀ s rest, P s → P (s.setPending rest))
    (tick : ∀ s, P s → P s.tick) (command : ∀ c s t, exec c s = .next t → P s → P t)
    (h : step s = .next t) (hs : P s) : P t := by
  unfold step at h
  split at h
  · exact command _ _ _ h (pending _ _ hs)
  · unfold idleStep at h
    split at h
    · exact command _ _ _ h hs
    · cases h
      exact tick s hs

/-! ### The calculus -/

/-- The two queues stand. -/
def Quiet (s t : State) : Prop :=
  t.port.requests = s.port.requests ∧ t.port.completions = s.port.completions

/-- The request queue stands, and n free slots are enough for the records that join the completion
queue besides the notices that test the room themselves. -/
def Adds (n : Nat) (s t : State) : Prop :=
  t.port.requests = s.port.requests ∧
    (s.port.completions.length + n ≤ 64 → t.port.completions.length ≤ 64)

theorem Quiet.refl (s : State) : Quiet s s := ⟨rfl, rfl⟩

theorem Quiet.trans (h : Quiet s t) (k : Quiet t u) : Quiet s u :=
  ⟨k.1.trans h.1, k.2.trans h.2⟩

theorem Quiet.ite {p : Prop} [Decidable p] {a b : State} (h : p → Quiet s a) (k : ¬p → Quiet s b) :
    Quiet s (if p then a else b) := by
  by_cases hp : p
  · rw [if_pos hp]; exact h hp
  · rw [if_neg hp]; exact k hp

theorem Quiet.foldl {α : Type} {f : State → α → State} (h : ∀ s a, Quiet s (f s a)) (xs : List α)
    (s : State) : Quiet s (xs.foldl f s) := by
  induction xs generalizing s with
  | nil => exact .refl s
  | cons a as ih => exact (h s a).trans (ih _)

theorem Quiet.of_changes (h : ChangesOnly l s t) (hp : Block.port ∉ l) : Quiet s t := by
  have e : t.port = s.port := h.2 .port hp
  exact ⟨by rw [e], by rw [e]⟩

theorem Quiet.adds (h : Quiet s t) (k : Adds n t u) : Adds n s u := by
  obtain ⟨hr, hc⟩ := h
  exact ⟨k.1.trans hr, fun b => k.2 (by rw [hc]; exact b)⟩

theorem Quiet.room (h : Quiet s t) : t.room = s.room := by
  unfold State.room Port.freeSlots
  rw [h.2]

theorem Adds.refl (s : State) : Adds 0 s s := ⟨rfl, id⟩

theorem Quiet.keeps (h : Quiet s t) : Adds 0 s t := h.adds (.refl t)

theorem Adds.trans (h : Adds n s t) (k : Adds 0 t u) : Adds n s u :=
  ⟨k.1.trans h.1, fun b => k.2 (h.2 b)⟩

theorem Adds.quiet (h : Adds n s t) (k : Quiet t u) : Adds n s u := h.trans k.keeps

theorem Adds.ite {p : Prop} [Decidable p] {a b : State} (h : p → Adds n s a) (k : ¬p → Adds n s b) :
    Adds n s (if p then a else b) := by
  by_cases hp : p
  · rw [if_pos hp]; exact h hp
  · rw [if_neg hp]; exact k hp

theorem Adds.foldl {α : Type} {f : State → α → State} (h : ∀ s a, Adds 0 s (f s a)) (xs : List α)
    (s : State) : Adds 0 s (xs.foldl f s) := by
  induction xs generalizing s with
  | nil => exact .refl s
  | cons a as ih => exact (h s a).trans (ih _)

/-- The condition of a further step decides nothing about the bound. -/
theorem Adds.thenIf {p : Prop} [Decidable p] (h : Adds n s t) (k : Adds 0 t u) :
    Adds n s (if p then u else t) := .ite (fun _ => h.trans k) fun _ => h

theorem Adds.bounded (h : Adds 0 s t) (hs : QueuesBounded s) : QueuesBounded t :=
  ⟨by rw [h.1]; exact hs.1, h.2 hs.2⟩

/-! ### The server port -/

theorem raise_quiet (s : State) (k : EventKind) (n : Nat) : Quiet s (s.raise k n) := ⟨rfl, rfl⟩

/-- Notice room is nine free slots of 64 (R168). -/
theorem room_iff : s.room = true ↔ s.port.completions.length ≤ 55 := by
  have : s.room = true ↔ 9 ≤ 64 - s.port.completions.length := decide_eq_true_iff
  exact this.trans (by omega)

/-- A notice that has notice room fits into the completion queue (R168). -/
theorem notice_adds (h : s.room = true) (k : Nat) (b : Body) : Adds 0 s (s.notice k b) := by
  refine ⟨rfl, fun _ => ?_⟩
  have := room_iff.mp h
  simp only [State.notice, State.place, State.setPort_port, List.length_append,
    List.length_singleton]
  omega

theorem place_adds (s : State) (r : Record) : Adds 1 s (s.place r) :=
  ⟨rfl, fun h => by simpa [State.place] using h⟩

theorem flushEvent_adds (s : State) : Adds 0 s s.flushEvent := by
  unfold State.flushEvent
  exact .ite (fun h => Quiet.adds (t := s.setPort { s.port with eventDue := false }) ⟨rfl, rfl⟩
    (notice_adds h.2 _ _)) fun _ => .refl s

theorem answerPart_adds (s : State) (kind tag part parts : Nat) (st : Status) (b : Body) :
    Adds 1 s (s.answerPart kind tag part parts st b) := (place_adds s _).trans (flushEvent_adds _)

theorem answer_adds (s : State) (kind tag : Nat) (st : Status) (b : Body) :
    Adds 1 s (s.answer kind tag st b) := answerPart_adds ..

theorem Adds.fits (h : Adds 1 s t) (hs : QueuesBounded s) (slot : s.port.completions.length < 64) :
    QueuesBounded t := ⟨by rw [h.1]; exact hs.1, h.2 slot⟩

theorem dropHead_bounded (hs : QueuesBounded s) : QueuesBounded s.dropHead := by
  refine ⟨?_, hs.2⟩
  have := hs.1
  simp only [State.dropHead, State.setPort_port, List.length_drop]
  omega

/-- A request is taken only where its completion has a slot (R166). -/
theorem takeRequest_bounded {α : Type} (kind : Nat) (parse : Bytes → Option α) (blank : Body)
    {carry : Nat → α → State → State} (rule : ∀ tag q u, QueuesBounded u →
      u.port.completions.length < 64 → QueuesBounded (carry tag q u)) (hs : QueuesBounded s) :
    QueuesBounded (takeRequest kind parse blank carry s) := by
  unfold takeRequest
  split
  · exact hs
  · rename_i r _ _
    by_cases taken : s.canTake ∧ recordKind r = kind
    · rw [if_pos taken]
      have slot : s.dropHead.port.completions.length < 64 := by
        have := taken.1
        simp only [State.canTake, Bool.and_eq_true, decide_eq_true_eq] at this
        exact this.1
      have dropped := dropHead_bounded hs
      dsimp only
      split
      · exact (answer_adds ..).fits dropped slot
      · split
        · exact (answer_adds ..).fits dropped slot
        · split
          · exact rule _ _ _ dropped slot
          · exact (answer_adds ..).fits dropped slot
    · rw [if_neg taken]; exact hs

/-! ### Change lists and the Snapshot Catalogue -/

theorem appendCurrent_quiet (s : State) (i : Fin 8) (x : Extent) : Quiet s
  (s.appendCurrent i x) := by
  unfold State.appendCurrent
  split
  · exact .refl s
  · exact .ite (fun _ => .refl s) fun _ => .ite (fun _ => ⟨rfl, rfl⟩) fun _ => ⟨rfl, rfl⟩

theorem appendExtent_quiet (s : State) (volume start length : Nat) :
    Quiet s (s.appendExtent volume start length) := by
  unfold State.appendExtent
  split
  · exact .refl s
  · exact .ite (fun _ => .refl s) fun _ => appendCurrent_quiet ..

theorem retainBlocks_quiet (s : State) (i : Fin 8) (e v : Nat) (b : Bucket) :
    Quiet s (s.retainBlocks i e v b) := by
  unfold State.retainBlocks
  split
  · exact .refl s
  · exact .ite (fun _ => ⟨rfl, rfl⟩) fun _ => ⟨rfl, rfl⟩

theorem deletionStep_quiet (s : State) (i : Fin 8) (v : Volume) (x : Snapshot) :
    Quiet s (s.deletionStep i v x).2 := by
  unfold State.deletionStep
  refine Quiet.trans ?_ (.of_changes (modifyVol_changes ..) (by decide))
  refine Quiet.trans ?_ (.of_changes (setCat_changes ..) (by decide))
  exact .foldl (fun s b => retainBlocks_quiet s _ _ _ b) _ _

theorem evaluateRounds_adds (fuel : Nat) (i : Fin 8) (s : State) : Adds 0 s
  (evaluateRounds fuel i s) := by
  induction fuel generalizing s with
  | zero => exact .refl s
  | succ fuel ih =>
    unfold evaluateRounds
    split
    · exact .refl s
    · refine .ite (fun _ => Quiet.keeps ⟨rfl, rfl⟩) fun _ => ?_
      split
      · exact .ite (fun _ => Quiet.keeps ⟨rfl, rfl⟩) fun _ =>
          Quiet.adds ⟨rfl, rfl⟩ (flushEvent_adds _)
      · rename_i x _
        refine .ite (fun room => ?_) fun _ => Quiet.keeps ⟨rfl, rfl⟩
        have gone := deletionStep_quiet s i ‹_› x
        exact (gone.adds ((notice_adds (gone.room.trans room) _ _).trans (flushEvent_adds _))).trans
          (ih _)

theorem evaluate_adds (s : State) (i : Fin 8) : Adds 0 s (s.evaluate i) := evaluateRounds_adds ..

theorem evaluateIfOver_adds (s : State) (i : Fin 8) : Adds 0 s (s.evaluateIfOver i) := by
  unfold State.evaluateIfOver
  split
  · exact .refl s
  · exact .ite (fun _ => evaluate_adds ..) fun _ => .refl s

theorem evaluateFlagged_adds (s : State) (i : Fin 8) : Adds 0 s (s.evaluateFlagged i) := by
  unfold State.evaluateFlagged
  split
  · exact .refl s
  · exact .ite (fun _ => evaluate_adds ..) fun _ => .refl s

theorem evaluateWaiting_adds (s : State) : Adds 0 s s.evaluateWaiting :=
  .ite (fun _ => .foldl evaluateFlagged_adds _ _) fun _ => .refl s

/-! ### Duplication Scheduler -/

theorem issueTicket_adds (h : s.room = true) (i : Fin 8) (v : Volume) :
    Adds 0 s (s.issueTicket i v) := by
  unfold State.issueTicket
  split
  · exact .refl s
  · dsimp only
    exact Quiet.adds ⟨rfl, rfl⟩ (notice_adds h _ _)

theorem issueRounds_adds (fuel : Nat) (s : State) : Adds 0 s (issueRounds fuel s) := by
  induction fuel generalizing s with
  | zero => exact .refl s
  | succ fuel ih =>
    unfold issueRounds
    split
    · exact .refl s
    · refine .ite (fun affordable => ?_) fun _ => .refl s
      have room : s.room = true := by
        simp only [State.affordable, Bool.and_eq_true] at affordable
        exact affordable.1
      exact (issueTicket_adds room _ _).trans (ih _)

theorem issuePass_adds (s : State) : Adds 0 s s.issuePass := issueRounds_adds ..

theorem issueIfFreed_adds (s : State) (n : Nat) : Adds 0 s (s.issueIfFreed n) :=
  .ite (fun _ => issuePass_adds s) fun _ => .refl s

theorem closeIfDone_quiet (s : State) : Quiet s s.closeIfDone := by
  unfold State.closeIfDone
  refine .ite (fun _ => ?_) fun _ => .refl s
  refine Quiet.trans (t := s.setDup { s.dup with window := .closed }) ⟨rfl, rfl⟩
    (.foldl (fun s i => ?_) _ _)
  split
  · exact .refl s
  · exact .ite (fun _ => ⟨rfl, rfl⟩) fun _ => .ite (fun _ => ⟨rfl, rfl⟩) fun _ => .refl s

theorem minuteChanged_quiet (s : State) (m : Nat) : Quiet s (s.minuteChanged m) := by
  unfold State.minuteChanged
  refine .ite (fun _ => ?_) fun _ => .refl s
  split
  · exact .ite (fun _ => .of_changes (openWindow_changes s) (by decide)) fun _ => .refl s
  · exact .ite (fun _ => .refl s) fun _ =>
      Quiet.trans (.of_changes (setDup_changes ..) (by decide)) (closeIfDone_quiet _)
  · exact .refl s

theorem placeCuts_adds (s : State) : Adds 0 s s.placeCuts := by
  unfold State.placeCuts
  refine .foldl (fun s i => ?_) _ _
  split
  · exact .refl s
  · exact .ite (fun h => Quiet.adds ⟨rfl, rfl⟩ (notice_adds h.2 _ _)) fun _ => .refl s

theorem afterMinute_adds (s : State) : Adds 0 s s.afterMinute :=
  ((flushEvent_adds s).trans (placeCuts_adds _)).trans (issuePass_adds _)

theorem testEnd_quiet (s : State) (i : Fin 8) : Quiet s (s.testEnd i) :=
  .of_changes (testEnd_changes ..) (by decide)

theorem dupEndStep_adds (s : State) (i : Fin 8) : Adds 0 s (s.dupEndStep i) := by
  unfold State.dupEndStep
  split
  · exact .refl s
  · rename_i v _
    refine .ite (fun h => ?_) fun _ => .refl s
    have ref : Quiet s (match v.base with | some b => s.giveRef i b | none => s) := by
      split
      · exact ⟨rfl, rfl⟩
      · exact .refl s
    refine Adds.trans (Adds.quiet (Adds.trans (ref.adds (Quiet.adds (t := State.putVol _ i _)
      ⟨rfl, rfl⟩ (notice_adds ?_ _ _))) (evaluateIfOver_adds ..)) (closeIfDone_quiet _))
      (flushEvent_adds _)
    exact ref.room.trans h.2

theorem riskStep_quiet (n : Nat) (acc : Nat × State) (x : Fin 8 × Option Nat) :
    Quiet acc.2 (riskStep n acc x).2 := by
  unfold riskStep
  split
  · split
    · exact ⟨rfl, rfl⟩
    · exact .refl _
  · exact .refl _

theorem testAtRisk_quiet (s : State) : Quiet s s.testAtRisk := by
  have fold : ∀ (n : Nat) (xs : List (Fin 8 × Option Nat)) (acc : Nat × State),
      Quiet acc.2 (xs.foldl (riskStep n) acc).2 := by
    intro n xs
    induction xs with
    | nil => exact fun acc => .refl _
    | cons x xs ih => exact fun acc => (riskStep_quiet n acc x).trans (ih _)
  exact .ite (fun _ => fold _ _ (s.now, s)) fun _ => .refl s

theorem answerTicket_quiet (s : State) (k : Fin 16) (x : Ticket) (ok : Bool) :
    Quiet s (s.answerTicket k x ok) := by
  unfold State.answerTicket
  dsimp only
  split
  · exact ⟨rfl, rfl⟩
  · exact .ite (fun _ => ⟨rfl, rfl⟩) fun _ => ⟨rfl, rfl⟩

theorem restoreEnds_adds (s : State) : Adds 0 s s.restoreEnds :=
  .ite (fun _ => Quiet.adds ⟨rfl, rfl⟩ (issuePass_adds _)) fun _ => Quiet.keeps ⟨rfl, rfl⟩

/-! ### Restore Controller and the arrival of room -/

theorem placeCopy_adds (h : s.room = true) (c : Fin 4) (x : Context) : Adds 0 s
  (s.placeCopy c x) := by
  unfold State.placeCopy
  dsimp only
  split
  · exact .refl s
  · exact Quiet.adds ⟨rfl, rfl⟩ (notice_adds h _ _)

theorem copyRounds_adds (fuel : Nat) (s : State) : Adds 0 s (copyRounds fuel s) := by
  induction fuel generalizing s with
  | zero => exact .refl s
  | succ fuel ih =>
    unfold copyRounds
    split
    · exact .refl s
    · exact .ite (fun h => (placeCopy_adds h ..).trans (ih _)) fun _ => .refl s

theorem placeCopies_adds (s : State) : Adds 0 s s.placeCopies := copyRounds_adds ..

theorem restoreEndStep_adds (s : State) (c : Fin 4) : Adds 0 s (s.restoreEndStep c) := by
  unfold State.restoreEndStep
  split
  · exact .refl s
  · rename_i x _
    refine .ite (fun h => ?_) fun _ => .refl s
    have back : Quiet s (match x.handle.bind s.entryByHandle with
        | some e => s.removeEntry e fun o => o
        | none => s) := by
      split
      · exact .of_changes (removeEntry_changes ..) (by decide)
      · exact .refl s
    refine Adds.trans (Adds.trans (Adds.trans (back.adds (Quiet.adds (t := State.freeContext _ c x)
      ⟨rfl, rfl⟩ (notice_adds ?_ _ _))) (restoreEnds_adds _)) (evaluateIfOver_adds ..))
      (flushEvent_adds _)
    exact back.room.trans h.2

theorem assemblyTimeout_adds (s : State) (c : Fin 4) : Adds 0 s (s.assemblyTimeout c) := by
  unfold State.assemblyTimeout
  split
  · exact .refl s
  · rename_i x _
    refine .ite (fun h => ?_) fun _ => .refl s
    have free : Quiet s (s.freeContext c x) := .of_changes (freeContext_changes ..) (by decide)
    exact ((free.adds (notice_adds (free.room.trans h.2.2) _ _)).trans
      (evaluateIfOver_adds ..)).trans
      (flushEvent_adds _)

theorem roomArrives_adds (s : State) : Adds 0 s s.roomArrives := by
  have jobs : ∀ s c, Adds 0 s ((State.assemblyTimeout s c).restoreEndStep c) := fun s c =>
    (assemblyTimeout_adds s c).trans (restoreEndStep_adds ..)
  exact ((((((flushEvent_adds s).trans (.foldl jobs _ _)).trans (.foldl dupEndStep_adds _ _)).trans
    (evaluateWaiting_adds _)).trans (placeCuts_adds _)).trans (placeCopies_adds _)).trans
    (issuePass_adds _)

/-! ### Requests -/

/-- A rule that touches other blocks and then answers adds one record. -/
theorem quiet_answer (hp : Block.port ∉ l) (h : ChangesOnly l s t) {kind tag : Nat} {st : Status}
    {b : Body} : Adds 1 s (t.answer kind tag st b) := (Quiet.of_changes h hp).adds (answer_adds ..)

theorem reserveRequest_adds (tag : Nat) (q : ReserveReq) (s : State) :
    Adds 1 s (reserveRequest tag q s) := by
  unfold reserveRequest
  refine .ite (fun _ => answer_adds ..) fun _ => .ite (fun _ => answer_adds ..) fun _ => ?_
  split
  · exact answer_adds ..
  · exact quiet_answer (by decide) (admit_changes ..)

theorem renewRequest_adds (tag handle : Nat) (s : State) : Adds 1 s
  (renewRequest tag handle s) := by
  unfold renewRequest
  refine .ite (fun _ => answer_adds ..) fun _ => ?_
  split
  · exact answer_adds ..
  · exact .ite (fun _ => quiet_answer (by decide) (setAdm_changes ..)) fun _ => answer_adds ..

theorem cancelRequest_adds (tag handle : Nat) (s : State) : Adds 1 s
  (cancelRequest tag handle s) := by
  unfold cancelRequest
  refine .ite (fun _ => answer_adds ..) fun _ => ?_
  split
  · exact answer_adds ..
  · exact .ite (fun _ => quiet_answer (by decide) (removeEntry_changes ..)) fun _ => answer_adds ..

theorem finishCommit_adds (s : State) (tag : Nat) (q : CommitReq) (st : Status) (charged used : Nat)
    (quota : QuotaState) : Adds 1 s (s.finishCommit tag q st charged used quota) :=
  ((appendExtent_quiet ..).adds (answer_adds ..)).trans (issueIfFreed_adds ..)

theorem commitRequest_adds (tag : Nat) (q : CommitReq) (s : State) :
    Adds 1 s (commitRequest tag q s) := by
  unfold commitRequest
  refine .ite (fun _ => answer_adds ..) fun _ => ?_
  split
  · exact answer_adds ..
  split
  · unfold commitLate
    split
    · exact finishCommit_adds ..
    · dsimp only
      split
      · exact (raise_quiet ..).adds (finishCommit_adds ..)
      · rename_i made
        exact ((((raise_quiet ..).trans (.of_changes
          (ensureOwner_changes _ _ _ made) (by decide))).trans
          (.of_changes (touchOwner_changes ..) (by decide))).trans
          (.of_changes (usedChanged_changes ..) (by decide))).adds (finishCommit_adds ..)
  · exact .ite (fun _ => answer_adds ..) fun _ =>
      ((Quiet.of_changes (removeEntry_changes ..) (by decide)).trans
        (.of_changes (usedChanged_changes ..) (by decide))).adds (finishCommit_adds ..)

theorem releaseQuota_quiet (s : State) (id : OwnerId) (b : Nat) : Quiet s
  (s.releaseQuota id b) := by
  unfold State.releaseQuota
  split
  · exact .refl s
  · refine Quiet.trans ?_ (.of_changes (usedChanged_changes ..) (by decide))
    exact .ite (fun _ => Quiet.trans (.of_changes (touchOwner_changes ..) (by decide))
      (raise_quiet ..))
      fun _ => .of_changes (touchOwner_changes ..) (by decide)

theorem releaseRetention_quiet (s : State) (i : Fin 8) (v : Volume) (birth c : Nat) :
    Quiet s (s.releaseRetention i v birth c).2.2 := by
  unfold State.releaseRetention
  split
  · exact .refl s
  · split
    · exact .refl s
    · dsimp only
      split
      · exact .refl s
      · exact (retainBlocks_quiet ..).trans (.of_changes (modifyVol_changes ..) (by decide))

theorem releaseRequest_adds (tag : Nat) (q : ReleaseReq) (s : State) :
    Adds 1 s (releaseRequest tag q s) := by
  unfold releaseRequest
  refine .ite (fun _ => answer_adds ..) fun _ => ?_
  split
  · exact answer_adds ..
  · refine .ite (fun _ => answer_adds ..) fun _ => Adds.trans ?_ (issueIfFreed_adds ..)
    have answered {st : Status} {b : Body} {i : Fin 8} {v : Volume} : Adds 1 s
        ((((s.releaseQuota q.owner q.blocks).releaseRetention i v q.birth q.blocks).2.2.appendExtent
          q.volume q.start q.length).answer 5 tag st b) :=
      (((releaseQuota_quiet ..).trans (releaseRetention_quiet ..)).trans
        (appendExtent_quiet ..)).adds (answer_adds ..)
    exact .ite (fun _ => answered) fun _ => answered.trans (evaluate_adds ..)

theorem snapshotRequest_adds (tag : Nat) (q : SnapshotReq) (s : State) :
    Adds 1 s (snapshotRequest tag q s) := by
  unfold snapshotRequest
  split
  · exact answer_adds ..
  refine .ite (fun _ => answer_adds ..) fun _ => ?_
  split
  · exact answer_adds ..
  split
  · exact answer_adds ..
  · refine .ite (fun _ => ?_) fun _ => quiet_answer (by decide) (makeSnapshot_changes ..)
    refine Adds.trans (Adds.thenIf (Adds.trans (quiet_answer (l := [.cat, .pool]) (by decide) ?_)
      (dupEndStep_adds ..)) (evaluateIfOver_adds ..)) (issuePass_adds _)
    exact andThen (by decide) (within (by decide) (makeSnapshot_changes ..)) (cutVolume_changes ..)

theorem deleteRequest_adds (tag : Nat) (q : DeleteReq) (s : State) :
    Adds 1 s (deleteRequest tag q s) := by
  unfold deleteRequest
  refine .ite (fun _ => answer_adds ..) fun _ => ?_
  split
  · exact answer_adds ..
  split
  · exact answer_adds ..
  · exact .ite (fun _ => (deletionStep_quiet ..).adds (answer_adds ..)) fun _ => answer_adds ..

theorem markRequest_adds (kind : Nat) (locked : State → Bool) (read : Snapshot → Bool)
    (write : Snapshot → Bool → Snapshot) (tag : Nat) (q : MarkReq) (s : State) :
    Adds 1 s (markRequest kind locked read write tag q s) := by
  unfold markRequest
  refine .ite (fun _ => answer_adds ..) fun _ => ?_
  split
  · exact answer_adds ..
  split
  · exact answer_adds ..
  · exact .ite (fun _ => answer_adds ..) fun _ =>
      .thenIf (quiet_answer (by decide) (modifySnap_changes ..)) (evaluateIfOver_adds ..)

theorem lockRequest_adds (tag : Nat) (x : Unit) (s : State) : Adds 1 s (lockRequest tag x s) := by
  refine Quiet.adds ?_ (answer_adds ..)
  exact .ite (fun _ => ⟨rfl, rfl⟩) fun _ => .refl s

theorem openRequest_adds (tag : Nat) (q : OpenReq) (s : State) : Adds 1 s
  (openRequest tag q s) := by
  unfold openRequest
  refine .ite (fun _ => answer_adds ..) fun _ => ?_
  split
  · refine .ite (fun _ => answer_adds ..) fun _ => ?_
    split
    · exact answer_adds ..
    · exact Quiet.adds ⟨rfl, rfl⟩ (answer_adds ..)
  · exact answer_adds ..

theorem freeAnswerEvaluate_adds (s : State) (c : Fin 4) (x : Context) (kind tag : Nat) (st : Status)
    (b : Body) (i : Fin 8) :
    Adds 1 s (((s.freeContext c x).answer kind tag st b).evaluateIfOver i) :=
  (quiet_answer (by decide) (freeContext_changes ..)).trans (evaluateIfOver_adds ..)

theorem itemRequest_adds (tag : Nat) (q : ItemReq) (s : State) : Adds 1 s
  (itemRequest tag q s) := by
  unfold itemRequest
  refine .ite (fun _ => answer_adds ..) fun _ => ?_
  split
  · exact answer_adds ..
  · refine .ite (fun _ => answer_adds ..) fun _ => ?_
    split
    · exact freeAnswerEvaluate_adds ..
    · exact quiet_answer (by decide) (putContext_changes ..)

theorem goTracked_adds (tag : Nat) (c : Fin 4) (x : Context) (cls : Fin 8) (s : State) :
    Adds 1 s (goTracked tag c x cls s) := by
  unfold goTracked
  have admitted := Quiet.of_changes (admit_changes s x.owner cls (x.items.map (·.length)).sum
    (s.volumeId x.targetSlot) (.restore c)) (by decide)
  exact .ite (fun _ => ((admitted.trans (.of_changes (startJob_changes ..) (by decide))).adds
    (answer_adds ..)).trans (placeCopies_adds _)) fun _ => admitted.adds
      (freeAnswerEvaluate_adds ..)

theorem goRequest_adds (tag : Nat) (q : JobReq) (s : State) : Adds 1 s (goRequest tag q s) := by
  unfold goRequest
  refine .ite (fun _ => answer_adds ..) fun _ => ?_
  split
  · exact answer_adds ..
  · refine .ite (fun _ => answer_adds ..) fun _ => .ite (fun _ => freeAnswerEvaluate_adds ..)
      fun _ => ?_
    split
    · exact goTracked_adds ..
    · exact (quiet_answer (by decide) (startJob_changes ..)).trans (placeCopies_adds _)

theorem cancelJobRequest_adds (tag : Nat) (q : JobReq) (s : State) :
    Adds 1 s (cancelJobRequest tag q s) := by
  unfold cancelJobRequest
  refine .ite (fun _ => answer_adds ..) fun _ => ?_
  split
  · exact answer_adds ..
  · split
    · exact freeAnswerEvaluate_adds ..
    · exact (quiet_answer (by decide) ((putContext_changes ..).trans (testJobEnd_changes ..))).trans
        (restoreEndStep_adds ..)
    · exact (quiet_answer (by decide) (testJobEnd_changes ..)).trans (restoreEndStep_adds ..)

theorem copiedRequest_adds (tag : Nat) (q : CopiedReq) (s : State) :
    Adds 1 s (copiedRequest tag q s) := by
  unfold copiedRequest
  refine .ite (fun _ => answer_adds ..) fun _ => ?_
  split
  · exact answer_adds ..
  split
  · exact answer_adds ..
  · refine .ite (fun _ => answer_adds ..) fun _ => Adds.trans (Adds.thenIf (Adds.trans ?_
      (restoreEndStep_adds ..)) (placeCopies_adds _)) (issueIfFreed_adds ..)
    refine Quiet.adds (Quiet.trans ?_ (.of_changes (testJobEnd_changes ..) (by decide)))
      (answer_adds ..)
    have put : ∀ c y, Quiet s (s.putContext c y) := fun _ _ => ⟨rfl, rfl⟩
    exact .ite (fun _ => ((put _ _).trans (.of_changes
      (chargeRestore_changes ..) (by decide))).trans
      (appendCurrent_quiet ..)) fun _ => put _ _

theorem sentRequest_adds (tag : Nat) (q : SentReq) (s : State) : Adds 1 s
  (sentRequest tag q s) := by
  unfold sentRequest
  refine .ite (fun _ => answer_adds ..) fun _ => ?_
  split
  · exact answer_adds ..
  · exact ((((((answerTicket_quiet ..).adds (answer_adds ..)).quiet (testEnd_quiet ..)).trans
      (dupEndStep_adds ..)).quiet (closeIfDone_quiet _)).trans (flushEvent_adds _)).trans
      (issuePass_adds _)

theorem duplicateNowRequest_adds (tag volume : Nat) (s : State) :
    Adds 1 s (duplicateNowRequest tag volume s) := by
  unfold duplicateNowRequest
  refine .ite (fun _ => answer_adds ..) fun _ => ?_
  split
  · exact answer_adds ..
  · exact .ite (fun _ => answer_adds ..) fun _ => .ite (fun _ => answer_adds ..) fun _ =>
      (quiet_answer (by decide) (putVol_changes ..)).trans (placeCuts_adds _)

theorem clockRequest_adds (tag minute : Nat) (s : State) : Adds 1 s
  (clockRequest tag minute s) := by
  unfold clockRequest
  refine .ite (fun _ => answer_adds ..) fun _ => ?_
  exact ((Quiet.trans (t := s.setMinute minute (s.now + 60000)) ⟨rfl, rfl⟩
    (minuteChanged_quiet ..)).adds (answer_adds ..)).trans (afterMinute_adds _)

/-- Nothing is placed for a FORGET_STATION that passes its checks (R64). -/
theorem forgetRequest_adds (tag station : Nat) (s : State) : Adds 1 s
  (forgetRequest tag station s) := by
  unfold forgetRequest
  split
  · refine .ite (fun _ => answer_adds ..) fun _ => .ite (fun _ => answer_adds ..) fun _ =>
      .ite (fun _ => answer_adds ..) fun _ => ⟨rfl, fun h => ?_⟩
    exact Nat.le_of_succ_le h
  · exact answer_adds ..

theorem inspectRequest_adds (tag : Nat) (q : InspectReq) (s : State) :
    Adds 1 s (inspectRequest tag q s) := by
  unfold inspectRequest
  refine .ite (fun _ => answer_adds ..) fun _ => ?_
  dsimp only
  split
  · exact answer_adds ..
  · exact answer_adds ..
  · exact .ite (fun _ => answer_adds ..) fun _ =>
      (Quiet.of_changes (inspected_changes ..) (by decide)).adds (answerPart_adds ..)

theorem amendOwner_adds (tag : Nat) (q : AmendReq) (soft : Bool) (s : State) :
    Adds 1 s (amendOwner tag q soft s) := by
  unfold amendOwner
  refine .ite (fun _ => answer_adds ..) fun _ => ?_
  split
  · exact answer_adds ..
  · refine .ite (fun _ => ?_) fun _ => answer_adds ..
    exact Quiet.adds (.ite (fun _ => .of_changes (touchOwner_changes ..) (by decide))
      fun _ => .refl s)
      (answer_adds ..)

theorem amendVolume_adds (tag : Nat) (q : AmendReq) (f : AmendField) (s : State) :
    Adds 1 s (amendVolume tag q f s) := by
  unfold amendVolume
  split
  · refine .ite (fun _ => answer_adds ..) fun _ => ?_
    split
    · exact answer_adds ..
    · exact .ite (fun _ => .ite (fun _ => answer_adds ..) fun _ =>
        .thenIf (quiet_answer (by decide) (putVol_changes ..)) (evaluate_adds ..)) fun _ =>
        answer_adds ..
  · exact answer_adds ..

theorem amendSnapshot_adds (tag : Nat) (q : AmendReq) (s : State) :
    Adds 1 s (amendSnapshot tag q s) := by
  unfold amendSnapshot
  refine .ite (fun _ => answer_adds ..) fun _ => ?_
  split
  · exact answer_adds ..
  split
  · exact answer_adds ..
  · exact .ite (fun _ => quiet_answer (by decide) (modifySnap_changes ..)) fun _ => answer_adds ..

theorem amendRequest_adds (tag : Nat) (q : AmendReq) (s : State) :
    Adds 1 s (amendRequest tag q s) := by
  unfold amendRequest
  refine .ite (fun _ => answer_adds ..) fun _ => ?_
  split
  · exact answer_adds ..
  · exact amendOwner_adds ..
  · exact amendOwner_adds ..
  · exact amendSnapshot_adds ..
  · exact amendVolume_adds ..

theorem loadVolumeRequest_adds (tag : Nat) (q : LoadVolumeReq) (s : State) :
    Adds 1 s (loadVolumeRequest tag q s) := by
  unfold loadVolumeRequest
  refine .ite (fun _ => answer_adds ..) fun _ => ?_
  split
  · exact answer_adds ..
  · exact quiet_answer (by decide) (putVol_changes ..)

theorem loadSnapshotRequest_adds (tag : Nat) (q : LoadSnapshotReq) (s : State) :
    Adds 1 s (loadSnapshotRequest tag q s) := by
  unfold loadSnapshotRequest
  split
  · exact answer_adds ..
  refine .ite (fun _ => answer_adds ..) fun _ => ?_
  split
  · exact answer_adds ..
  · exact .ite (fun _ => answer_adds ..) fun _ => .ite (fun _ => answer_adds ..) fun _ =>
      Quiet.adds ⟨rfl, rfl⟩ (answer_adds ..)

theorem loadOwnerRequest_adds (tag : Nat) (q : LoadOwnerReq) (s : State) :
    Adds 1 s (loadOwnerRequest tag q s) := by
  unfold loadOwnerRequest
  refine .ite (fun _ => answer_adds ..) fun _ => ?_
  split
  · exact answer_adds ..
  split
  · exact answer_adds ..
  · rename_i made
    exact quiet_answer (by decide) (loadOwner_changes made)

theorem announceServing_changes (s : State) : ChangesOnly [.link] s s.announceServing :=
  .ite (fun _ => ((fillAnnounce_changes s).trans (composeUsage_changes _)).trans
    (takeSlot_changes _))
    fun _ => .refl _ _

theorem removeBases_changes (s : State) : ChangesOnly [.cat] s s.removeBases :=
  .foldl (fun _ _ => modifyVol_changes ..) _ _

theorem loadDoneRequest_adds (tag generation : Nat) (s : State) :
    Adds 1 s (loadDoneRequest tag generation s) := by
  unfold loadDoneRequest
  refine .ite (fun _ => answer_adds ..) fun _ => ?_
  refine Adds.trans (Adds.quiet (Quiet.adds ?_ (answer_adds ..))
    (.of_changes (announceServing_changes _) (by decide))) (.foldl evaluate_adds _ _)
  exact Quiet.trans (t := (s.setLink { s.link with generation }).seedRng generation) ⟨rfl, rfl⟩
    ((Quiet.of_changes (removeBases_changes _) (by decide)).trans ⟨rfl, rfl⟩)

/-! ### The commands -/

theorem whenReleased_adds {f : State → State} (hf : Adds 0 s (f s)) (h : whenReleased s f = .next t)
    (hs : QueuesBounded s) : QueuesBounded t := by
  obtain ⟨-, rfl⟩ | ⟨-, rfl⟩ := next_of_whenReleased h
  · exact hs
  · exact hf.bounded hs

theorem request_bounded {α : Type} {kind : Nat} {parse : Bytes → Option α} {blank : Body}
    {carry : Nat → α → State → State} (rule : ∀ tag q s, Adds 1 s (carry tag q s))
    (h : whenReleased s (takeRequest kind parse blank carry) = .next t) (hs : QueuesBounded s) :
    QueuesBounded t := by
  obtain ⟨-, rfl⟩ | ⟨-, rfl⟩ := next_of_whenReleased h
  · exact hs
  · exact takeRequest_bounded kind parse blank (fun tag q u => (rule tag q u).fits) hs

/-- Both queues of a part that starts afresh are empty, and its first records fit. -/
theorem fresh_bounded (hp : s.port = Port.reset) (h : Adds 1 s t) : QueuesBounded t :=
  ⟨by rw [h.1, hp]; exact Nat.zero_le _, h.2 (by rw [hp]; decide)⟩

theorem enterChecked_adds (s : State) : Adds 0 s s.enterChecked :=
  .ite (fun _ => Quiet.keeps ⟨rfl, rfl⟩) fun _ => Quiet.adds ⟨rfl, rfl⟩ (flushEvent_adds _)

theorem restart_bounded (h : execRestart s = .next t) (hs : QueuesBounded s) : QueuesBounded t := by
  obtain ⟨-, rfl⟩ | ⟨-, rfl⟩ := next_of_whenReleased h
  · exact hs
  · refine takeRequest_bounded _ _ _ (fun _ _ u _ _ => ?_) hs
    exact fresh_bounded (s := u.restarted) rfl ((answer_adds ..).trans (enterChecked_adds _))

theorem configCheck_bounded (image : List (BitVec 8)) (h : execConfigCheck image s = .next t)
    (hs : QueuesBounded s) : QueuesBounded t := by
  refine whenReleased_adds ?_ h hs
  refine .ite (fun _ => ?_) fun _ => .refl s
  dsimp only
  split
  · exact Quiet.adds ⟨rfl, rfl⟩ (enterChecked_adds _)
  · exact Quiet.adds ⟨rfl, rfl⟩ (enterChecked_adds _)

theorem write_bounded (bytes : List (BitVec 8)) (h : execWrite bytes s = .next t)
    (hs : QueuesBounded s) : QueuesBounded t := by
  obtain ⟨-, rfl⟩ | ⟨-, rfl⟩ := next_of_whenReleased h
  · exact hs
  · split
    · exact hs
    · unfold State.acceptRecord
      dsimp only
      split
      · rename_i fits
        refine ⟨?_, hs.2⟩
        have := fits.2.2.2
        simp only [State.shiftStatus, State.setPort_port, Config.requestSlots, List.length_append,
          List.length_singleton] at this ⊢
        omega
      · exact hs

theorem read_bounded (clocked : Nat) (h : execRead clocked s = .next t) (hs : QueuesBounded s) :
    QueuesBounded t := by
  obtain ⟨-, rfl⟩ | ⟨-, rfl⟩ := next_of_whenReleased h
  · exact hs
  · split
    · exact hs
    · split
      · exact hs
      · rename_i r rest left
        have shorter : rest.length ≤ 64 := by
          have := hs.2
          rw [left, List.length_cons] at this
          omega
        dsimp only
        split
        · refine Adds.bounded (.thenIf (.refl _) (roomArrives_adds _)) ⟨hs.1, shorter⟩
        · exact hs

/-- The end of a sweep waits for a slot for its completion (R66). -/
theorem sweepEnd_bounded (h : execForgetSweepEnd s = .next t) (hs : QueuesBounded s) :
    QueuesBounded t := by
  obtain ⟨-, rfl⟩ | ⟨-, rfl⟩ := next_of_whenReleased h
  · exact hs
  · split
    · exact hs
    · split
      · rename_i slot
        refine Adds.fits (s := s) (Quiet.adds ?_ (answer_adds ..)) hs slot.2
        exact ⟨rfl, rfl⟩
      · exact hs

theorem kindOutOfRange_bounded (h : execKindNumberOutOfRange s = .next t) (hs : QueuesBounded s) :
    QueuesBounded t := by
  obtain ⟨-, rfl⟩ | ⟨-, rfl⟩ := next_of_whenReleased h
  · exact hs
  · split
    · exact hs
    · split
      · rename_i taken
        have := taken.1
        simp only [State.canTake, Bool.and_eq_true, decide_eq_true_eq] at this
        exact (answer_adds ..).fits (dropHead_bounded hs) this.1
      · exact hs

theorem peerFrame_adds (burst : List (BitVec 8)) (s : State) (f : Frame) (i : Fin 16) :
    Adds 0 s (s.peerFrame i f burst) := by
  refine .ite (fun _ => .refl s) fun _ => ?_
  have heard : ∀ p, Quiet s (s.putPeer i p) := fun _ => ⟨rfl, rfl⟩
  have entry : ∀ (g : Nat) (u : State) (e : OwnerId × Nat), Quiet u (u.usageEntry i g e) := by
    intro g u e
    refine .ite (fun _ => .refl u) fun _ => ?_
    split
    · exact .refl u
    · exact .ite (fun _ => ⟨rfl, rfl⟩) fun _ => ⟨rfl, rfl⟩
  exact .ite (fun _ => ((heard _).trans (.foldl (entry _) _ _)).adds (flushEvent_adds _)) fun _ =>
    (heard _).keeps

theorem announceTimer_bounded (h : execAnnounceTimerExpiry s = .next t) (hs : QueuesBounded s) :
    QueuesBounded t := by
  refine whenReleased_adds ?_ h hs
  split
  · exact .refl s
  · refine .ite (fun _ => ?_) fun _ => .refl s
    have timer : ∀ x, Quiet s (s.setLink x) := fun _ => ⟨rfl, rfl⟩
    have share : ∀ u : State, Quiet u u.recomputeShare := fun _ => ⟨rfl, rfl⟩
    exact (((((timer _).trans (share _)).trans (testAtRisk_quiet _)).adds (flushEvent_adds _)).trans
      (issuePass_adds _)).quiet (.of_changes (announceSlots_changes _) (by decide))

theorem eventsAnswer_adds (s : State) {tag : Nat} {st : Status} {b : Body} :
    Adds 1 s ((s.setPort s.port.clearEvents).answer 22 tag st b) :=
  have cleared : Quiet s (s.setPort s.port.clearEvents) := ⟨rfl, rfl⟩
  cleared.adds (answer_adds ..)

/-- Every command keeps the bounds of the queues. -/
theorem exec_bounded (c : Instr) (s t : State) (h : exec c s = .next t) (hs : QueuesBounded s) :
    QueuesBounded t := by
  by_cases framed : ∃ l, mayChange c = some l ∧ Block.port ∉ l
  · obtain ⟨l, hl, hp⟩ := framed
    exact (Quiet.of_changes (exec_changes c hl h) hp).keeps.bounded hs
  cases c <;> simp only [exec] at h
  case powerOnReset => cases h; exact ⟨Nat.zero_le _, Nat.zero_le _⟩
  case configCheck => exact configCheck_bounded _ h hs
  case status => exact whenReleased_adds (Quiet.keeps ⟨rfl, rfl⟩) h hs
  case write => exact write_bounded _ h hs
  case read => exact read_bounded _ h hs
  case reserve => exact request_bounded reserveRequest_adds h hs
  case renew => exact request_bounded renewRequest_adds h hs
  case cancel => exact request_bounded cancelRequest_adds h hs
  case commit => exact request_bounded commitRequest_adds h hs
  case release => exact request_bounded releaseRequest_adds h hs
  case snapshot => exact request_bounded snapshotRequest_adds h hs
  case deleteSnapshot => exact request_bounded deleteRequest_adds h hs
  case expiryWaitingEvaluation => exact whenReleased_adds (evaluateWaiting_adds s) h hs
  case hold => exact request_bounded (markRequest_adds 8 _ _ _) h hs
  case pin => exact request_bounded (markRequest_adds 9 _ _ _) h hs
  case lockHolds => exact request_bounded lockRequest_adds h hs
  case restoreOpen => exact request_bounded openRequest_adds h hs
  case restoreItem => exact request_bounded itemRequest_adds h hs
  case restoreGo => exact request_bounded goRequest_adds h hs
  case restoreCancel => exact request_bounded cancelJobRequest_adds h hs
  case copied => exact request_bounded copiedRequest_adds h hs
  case copyNotice => exact whenReleased_adds (placeCopies_adds s) h hs
  case assemblyTimeout => exact whenReleased_adds (assemblyTimeout_adds ..) h hs
  case restoreEndStep => exact whenReleased_adds (restoreEndStep_adds ..) h hs
  case sent => exact request_bounded sentRequest_adds h hs
  case duplicateNow => exact request_bounded duplicateNowRequest_adds h hs
  case clock => exact request_bounded clockRequest_adds h hs
  case minuteAdvance =>
    refine whenReleased_adds ?_ h hs
    split
    · exact .ite (fun _ => Adds.trans (Quiet.keeps (Quiet.trans (t := s.setMinute _ _) ⟨rfl, rfl⟩
        (minuteChanged_quiet ..))) (afterMinute_adds _)) fun _ => .refl s
    · exact .refl s
  case windowClosed => exact whenReleased_adds ((closeIfDone_quiet s).adds (flushEvent_adds _)) h hs
  case cutNotice => exact whenReleased_adds (placeCuts_adds s) h hs
  case cutTimeout slot =>
    refine whenReleased_adds ?_ h hs
    split
    · exact .refl s
    · exact .ite (fun _ => Quiet.adds ⟨rfl, rfl⟩ (flushEvent_adds _)) fun _ => .refl s
  case issuePass => exact whenReleased_adds (issuePass_adds s) h hs
  case tokenGain =>
    refine whenReleased_adds (.ite (fun _ => ?_) fun _ => .refl s) h hs
    exact Quiet.adds (t := s.gainTokens) ⟨rfl, rfl⟩ (issuePass_adds _)
  case dupEndStep => exact whenReleased_adds (dupEndStep_adds ..) h hs
  case forgetStation => exact request_bounded forgetRequest_adds h hs
  case forgetSweepEnd => exact sweepEnd_bounded h hs
  case inspect => exact request_bounded inspectRequest_adds h hs
  case amend => exact request_bounded amendRequest_adds h hs
  case events =>
    refine request_bounded (fun _ _ u => ?_) h hs
    exact eventsAnswer_adds u
  case eventPendingNotice => exact whenReleased_adds (flushEvent_adds s) h hs
  case restart => exact restart_bounded h hs
  case loadVolume => exact request_bounded loadVolumeRequest_adds h hs
  case loadSnapshot => exact request_bounded loadSnapshotRequest_adds h hs
  case loadOwner => exact request_bounded loadOwnerRequest_adds h hs
  case loadDone => exact request_bounded loadDoneRequest_adds h hs
  case leaseExpiry =>
    refine whenReleased_adds ?_ h hs
    split
    · exact .refl s
    · exact .ite (fun _ => ((Quiet.of_changes (removeEntry_changes ..) (by decide)).trans
        (raise_quiet ..)).adds (flushEvent_adds _)) fun _ => .refl s
  case announceTimerExpiry => exact announceTimer_bounded h hs
  case collision =>
    refine whenReleased_adds (.ite (fun _ => .ite (fun _ => ?_) fun _ => ?_) fun _ => .refl s) h hs
    · unfold State.giveUp
      refine Adds.quiet (Quiet.adds ?_ (flushEvent_adds _)) (.of_changes
        (takeSlot_changes _) (by decide))
      refine Quiet.trans (Quiet.trans ?_ (.of_changes (setLink_changes ..) (by decide)))
        (raise_quiet ..)
      exact .ite (fun _ => ⟨rfl, rfl⟩) fun _ => ⟨rfl, rfl⟩
    · exact Quiet.keeps ⟨rfl, rfl⟩
  case frameReceived burst =>
    refine whenReleased_adds ?_ h hs
    refine .ite (fun _ => .refl s) fun _ => .ite (fun _ => ?_) fun _ => .ite (fun _ => ?_) fun _ =>
      .ite (fun _ => ?_) fun _ => ?_
    · exact (raise_quiet ..).adds (flushEvent_adds _)
    · exact (raise_quiet ..).adds (flushEvent_adds _)
    · exact .thenIf ((raise_quiet ..).adds (flushEvent_adds _)) (Quiet.keeps ⟨rfl, rfl⟩)
    · split
      · exact peerFrame_adds ..
      · exact .refl s
  case rstAsserted => cases h; exact hs
  case kindNumberOutOfRange => exact kindOutOfRange_bounded h hs
  all_goals exact absurd ⟨_, rfl, by decide⟩ framed

/-- The queues of the port stay within 64 records (R164, R166 to R168). -/
theorem step_queuesBounded (h : step s = .next t) (hs : QueuesBounded s) : QueuesBounded t := by
  refine step_keeps (fun _ _ hs => hs) (fun s hs => ?_) exec_bounded h hs
  unfold State.tick
  split
  · exact hs
  · exact hs

end Sys2Proof.Proofs

/-! PROOFS. The Owner Table and the contribution lists as ordered lists: what the insertion by owner
ID or by station leaves, which record the eviction and the displacement pick, and the form of the
table (R3, section 1.4), which every step keeps. -/

namespace Sys2Proof.Proofs

open Sys2Proof.Machine Sys2Proof.Safety

/-! ### Ordered lists -/

section Ordered

variable {α : Type} {key : α → Nat} {x y : α} {l : List α}

/-- The insertion that the Owner Table and the contribution lists share: in ascending key, in place
of an element of the same key. -/
def putBy (key : α → Nat) (x : α) : List α → List α
  | [] => [x]
  | y :: ys =>
    if key x = key y then x :: ys else if key x < key y then x :: y :: ys else y :: putBy key x ys

theorem putOwner_eq (o : Owner) (l : List Owner) : putOwner o l = putBy (·.id.toNat) o l := by
  induction l with
  | nil => rfl
  | cons x xs ih => simp only [putOwner, putBy, ih, BitVec.toNat_inj, BitVec.lt_def]

theorem putContribution_eq (c : Contribution) (l : List Contribution) :
    putContribution c l = putBy (·.station.val) c l := by
  induction l with
  | nil => rfl
  | cons x xs ih => simp only [putContribution, putBy, ih, Fin.ext_iff, Fin.lt_def]

/-- The keys of a list strictly ascend. -/
abbrev Ascends (key : α → Nat) (l : List α) : Prop := l.Pairwise fun a b => key a < key b

/-- In an ascending list the inserted element stands between the smaller and the greater ones. -/
theorem putBy_of_ascends (h : Ascends key l) :
    putBy key x l = l.filter (key · < key x) ++ x :: l.filter (key x < key ·) := by
  induction l with
  | nil => rfl
  | cons y ys ih =>
    obtain ⟨hy, hys⟩ := List.pairwise_cons.mp h
    have above : key x ≤ key y → ys.filter (key · < key x) = [] ∧ ys.filter
      (key x < key ·) = ys := by
      intro hxy
      refine ⟨List.filter_eq_nil_iff.mpr fun z hz => ?_, List.filter_eq_self.mpr fun z hz => ?_⟩
      · have := hy z hz
        simp only [decide_eq_true_eq]
        omega
      · have := hy z hz
        simp only [decide_eq_true_eq]
        omega
    unfold putBy
    split
    · rename_i e
      simp [e, (e ▸ above e.le).1, (e ▸ above e.le).2]
    · split
      · rename_i lt
        have : ¬key y < key x := by omega
        simp [this, lt, (above lt.le).1, (above lt.le).2]
      · rename_i ne nlt
        have lt : key y < key x := by omega
        simp [lt, nlt, ih hys]

theorem mem_putBy (h : Ascends key l) : y ∈ putBy key x l ↔ y = x ∨ y ∈ l ∧ key y ≠ key x := by
  rw [putBy_of_ascends h]
  simp only [List.mem_append, List.mem_cons, List.mem_filter, decide_eq_true_eq]
  constructor
  · rintro (⟨hy, lt⟩ | rfl | ⟨hy, lt⟩)
    · exact .inr ⟨hy, lt.ne⟩
    · exact .inl rfl
    · exact .inr ⟨hy, lt.ne'⟩
  · rintro (rfl | ⟨hy, ne⟩)
    · exact .inr (.inl rfl)
    · rcases Nat.lt_or_gt_of_ne ne with lt | gt
      · exact .inl ⟨hy, lt⟩
      · exact .inr (.inr ⟨hy, gt⟩)

theorem putBy_ascends (h : Ascends key l) : Ascends key (putBy key x l) := by
  rw [putBy_of_ascends h]
  refine List.pairwise_append.mpr ⟨h.filter _, List.pairwise_cons.mpr ⟨?_, h.filter _⟩, ?_⟩
  · intro z hz
    exact of_decide_eq_true (List.mem_filter.mp hz).2
  · intro a ha b hb
    have below : key a < key x := of_decide_eq_true (List.mem_filter.mp ha).2
    rcases List.mem_cons.mp hb with rfl | hb
    · exact below
    · exact below.trans (of_decide_eq_true (List.mem_filter.mp hb).2)

/-- An element of a key that stands takes its place. -/
theorem length_putBy_of_mem (h : Ascends key l) (hy : y ∈ l) (e : key y = key x) :
    (putBy key x l).length = l.length := by
  induction l with
  | nil => cases hy
  | cons z zs ih =>
    obtain ⟨hz, hzs⟩ := List.pairwise_cons.mp h
    unfold putBy
    split
    · rfl
    · rename_i ne
      have hy' : y ∈ zs := (List.mem_cons.mp hy).resolve_left fun e' => ne (by rw [← e, e'])
      have := hz y hy'
      rw [if_neg (by omega), List.length_cons, ih hzs hy', List.length_cons]

/-- An element of a new key joins the list. -/
theorem length_putBy_of_new (new : ∀ y ∈ l, key y ≠ key x) :
    (putBy key x l).length = l.length + 1 := by
  induction l with
  | nil => rfl
  | cons z zs ih =>
    have hz := new z (by simp)
    unfold putBy
    rw [if_neg hz.symm]
    split
    · rfl
    · rw [List.length_cons, ih fun y hy => new y (by simp [hy]),
        List.length_cons]

theorem length_putBy_le (h : Ascends key l) : (putBy key x l).length ≤ l.length + 1 := by
  by_cases hit : ∃ y ∈ l, key y = key x
  · obtain ⟨y, hy, e⟩ := hit
    rw [length_putBy_of_mem h hy e]
    exact Nat.le_succ _
  · rw [length_putBy_of_new fun y hy e => hit ⟨y, hy, e⟩]

/-! ### The first of the least -/

/-- The fold that picks the eviction's victim and the contribution to displace: the first element of
the least weight. -/
def firstLeast (weight : α → Nat) (l : List α) : Option α :=
  l.foldl (fun best x =>
    match best with
    | none => some x
    | some b => if weight x < weight b then some x else some b) none

/-- a comes before b by weight, and among equal weights by key. -/
def Before (weight key : α → Nat) (a b : α) : Prop :=
  weight a < weight b ∨ (weight a = weight b ∧ key a ≤ key b)

theorem foldl_least {weight : α → Nat} (b : α) (h : Ascends key (b :: l)) :
    ∃ r ∈ b :: l, (l.foldl (fun best x => match best with
      | none => some x
      | some b => if weight x < weight b then some x else some b) (some b)) = some r ∧
      ∀ y ∈ b :: l, Before weight key r y := by
  induction l generalizing b with
  | nil => exact ⟨b, by simp, rfl, by simp [Before]⟩
  | cons a as ih =>
    obtain ⟨hb, has⟩ := List.pairwise_cons.mp h
    have hba : key b < key a := hb a (by simp)
    by_cases lt : weight a < weight b
    · obtain ⟨r, hr, hf, least⟩ := ih a has
      refine ⟨r, List.mem_cons_of_mem _ hr, by simpa [lt] using hf, fun y hy => ?_⟩
      rcases List.mem_cons.mp hy with rfl | hy
      · have := least a (by simp)
        simp only [Before] at this ⊢
        omega
      · exact least y hy
    · have hb' : Ascends key (b :: as) :=
        List.pairwise_cons.mpr ⟨fun z hz => hb z (by simp [hz]), (List.pairwise_cons.mp has).2⟩
      obtain ⟨r, hr, hf, least⟩ := ih b hb'
      refine ⟨r, ?_, by simpa [lt] using hf, fun y hy => ?_⟩
      · rcases List.mem_cons.mp hr with rfl | hr <;> simp_all
      · rcases List.mem_cons.mp hy with rfl | hy
        · exact least _ (by simp)
        · rcases List.mem_cons.mp hy with rfl | hy
          · have := least b (by simp)
            simp only [Before] at this ⊢
            omega
          · exact least y (by simp [hy])

/-- In an ascending list the fold finds the element that comes before all others. -/
theorem firstLeast_some {weight : α → Nat} (h : Ascends key l) (hx : firstLeast weight l = some x) :
    x ∈ l ∧ ∀ y ∈ l, Before weight key x y := by
  cases l with
  | nil => cases hx
  | cons b l =>
    obtain ⟨r, hr, hf, least⟩ := foldl_least (weight := weight) b h
    obtain rfl : r = x := Option.some.inj (hf.symm.trans hx)
    exact ⟨hr, least⟩

theorem firstLeast_none {weight : α → Nat} (h : Ascends key l) (hx : firstLeast weight l = none) :
    l = [] := by
  cases l with
  | nil => rfl
  | cons b l =>
    obtain ⟨r, -, hf, -⟩ := foldl_least (weight := weight) b h
    have : some r = none := hf.symm.trans hx
    cases this

/-- The element that comes before all others is the one found. -/
theorem firstLeast_eq {weight : α → Nat} (h : Ascends key l) (hx : x ∈ l)
    (least : ∀ y ∈ l, Before weight key x y) : firstLeast weight l = some x := by
  match hf : firstLeast weight l with
  | none => rw [firstLeast_none h hf] at hx; cases hx
  | some r =>
    obtain ⟨hr, hleast⟩ := firstLeast_some h hf
    have a := hleast x hx
    have b := least r hr
    have e : key r = key x := by
      simp only [Before] at a b
      omega
    by_contra ne
    rcases (List.pairwise_iff_getElem.mp h) with hlt
    obtain ⟨i, hi, rfl⟩ := List.mem_iff_getElem.mp hr
    obtain ⟨j, hj, rfl⟩ := List.mem_iff_getElem.mp hx
    rcases Nat.lt_trichotomy i j with lt | rfl | lt
    · have := hlt i j hi hj lt; omega
    · exact ne rfl
    · have := hlt j i hj hi lt; omega

end Ordered

/-! ### The form of a record -/

variable {l : List Block} {s t u : State} {o : Owner} {st : Fin 16}

/-- The contribution list of a record is in form (R3, section 1.4). -/
def RecordOk (st : Fin 16) (o : Owner) : Prop :=
  o.contributions.length ≤ 6 ∧ o.contributions.Pairwise (fun a b => a.station < b.station) ∧
    ∀ c ∈ o.contributions, 1 ≤ c.blocks ∧ c.station ≠ st

@[simp] theorem reevaluate_contributions (s : State) (o : Owner) :
    (s.reevaluate o).contributions = o.contributions := by
  unfold State.reevaluate
  split
  · split <;> rfl
  · rfl

theorem RecordOk.of_contributions {o' : Owner} (h : RecordOk st o)
    (e : o'.contributions = o.contributions) : RecordOk st o' := by
  unfold RecordOk
  rw [e]
  exact h

theorem RecordOk.filter (h : RecordOk st o) (p : Contribution → Bool) (b : Bool) :
    RecordOk st { o with contributions := o.contributions.filter p, overflow := b } :=
  ⟨(List.length_filter_le ..).trans h.1, h.2.1.filter _, fun c hc => h.2.2 c
    (List.mem_of_mem_filter hc)⟩

theorem recordOk_of_nil (h : o.contributions = []) : RecordOk st o := by
  simp [RecordOk, h]

/-- A contribution joins a list that has its station or a free place. -/
theorem RecordOk.put {c : Contribution} (h : RecordOk st o) (hc : 1 ≤ c.blocks)
  (hst : c.station ≠ st)
    (room : o.contributions.any (·.station == c.station) = true ∨ o.contributions.length < 6)
      (b : Bool) :
    RecordOk st { o with contributions := putContribution c o.contributions, overflow := b } := by
  obtain ⟨len, asc, each⟩ := h
  have asc' : Ascends (·.station.val) o.contributions := asc
  rw [RecordOk, putContribution_eq]
  refine ⟨?_, putBy_ascends asc', fun d hd => ?_⟩
  · rcases room with hit | free
    · obtain ⟨d, hd, e⟩ := List.any_eq_true.mp hit
      rw [length_putBy_of_mem asc' hd (Fin.ext_iff.mp (by simpa using e))]
      exact len
    · exact (length_putBy_le asc').trans free
  · rcases (mem_putBy asc').mp hd with rfl | ⟨hd, -⟩
    · exact ⟨hc, hst⟩
    · exact each d hd

theorem smallestContribution_eq (l : List Contribution) :
    smallestContribution l = firstLeast (·.blocks) l := by
  unfold smallestContribution firstLeast
  congr 1
  funext best c
  cases best <;> rfl

@[simp] theorem takeReport_id (o : Owner) (c : Contribution) : (o.takeReport c).1.id = o.id := by
  unfold Owner.takeReport
  split
  · rfl
  split
  · rfl
  split
  · split <;> rfl
  · rfl

/-- A report of another station keeps the contribution list in form (R9, R10). -/
theorem RecordOk.takeReport (h : RecordOk st o) (c : Contribution) (hst : c.station ≠ st) :
    RecordOk st (o.takeReport c).1 := by
  unfold Owner.takeReport
  split
  · exact h.filter _ _
  rename_i blocks
  have hc : 1 ≤ c.blocks := Nat.one_le_iff_ne_zero.mpr blocks
  split
  · rename_i room
    exact h.put hc hst room _
  · split
    · rename_i m hm
      obtain ⟨hmem, -⟩ := firstLeast_some (key := (·.station.val)) h.2.1
        ((smallestContribution_eq _).symm.trans hm)
      split
      · refine (h.filter (·.station != m.station) true).put hc hst (.inr ?_) true
        have : (o.contributions.filter (·.station != m.station)).length < o.contributions.length :=
          List.length_filter_lt_length_iff_exists.mpr ⟨m, hmem, by simp⟩
        exact this.trans_le h.1
      · exact h.of_contributions rfl
    · exact h.of_contributions rfl

/-! ### The form of the table -/

theorem ownersOrdered_iff : OwnersOrdered s ↔ s.owners.length ≤ 4096 ∧
    Ascends (·.id.toNat) s.owners ∧ ∀ o ∈ s.owners, RecordOk s.station o := Iff.rfl

theorem ids_ascend (h : OwnersOrdered s) : Ascends (·.id.toNat) s.owners := h.2.1

theorem recordOk_of_mem (h : OwnersOrdered s)
  (ho : o ∈ s.owners) : RecordOk s.station o := h.2.2 o ho

theorem ownersOrdered_congr (ho : t.owners = s.owners) (hst : t.station = s.station)
    (h : OwnersOrdered s) : OwnersOrdered t := by
  rw [ownersOrdered_iff] at h ⊢
  rw [ho, hst]
  exact h

/-- What leaves the Owner Table alone keeps its form. -/
theorem ownersOrdered_of_changes (hp : Block.owners ∉ l) (c : ChangesOnly l s t)
  (h : OwnersOrdered s) :
    OwnersOrdered t := ownersOrdered_congr (c.2 .owners hp) c.1.2.2.1 h

theorem findOwner_mem {id : OwnerId} (h : s.findOwner id = some o) : o ∈ s.owners :=
  List.mem_of_find?_eq_some h

theorem findOwner_none_iff {id : OwnerId} : s.findOwner id = none ↔ ∀ o ∈ s.owners, o.id ≠ id := by
  simp [State.findOwner]

/-- In an ordered table a record is found under its ID. -/
theorem findOwner_of_mem (h : OwnersOrdered s) (ho : o ∈ s.owners) : s.findOwner o.id = some o := by
  have asc := ids_ascend h
  unfold State.findOwner
  generalize s.owners = l at *
  induction l with
  | nil => cases ho
  | cons x xs ih =>
    obtain ⟨hx, hxs⟩ := List.pairwise_cons.mp asc
    rcases List.mem_cons.mp ho with rfl | ho
    · simp
    · have ne : (x.id == o.id) = false := by
        simpa using fun e : x.id = o.id => (hx o ho).ne (congrArg BitVec.toNat e)
      rw [List.find?_cons, ne]
      exact ih ho hxs

/-- A record in form takes the place of the one with its ID. -/
theorem ownersOrdered_replace (h : OwnersOrdered s) (found : (s.findOwner o.id).isSome = true)
    (ok : RecordOk s.station o) : OwnersOrdered (s.setOwners (putOwner o s.owners)) := by
  obtain ⟨x, hx⟩ := Option.isSome_iff_exists.mp found
  have e : x.id.toNat = o.id.toNat := by rw [findOwner_id s hx]
  rw [ownersOrdered_iff, State.setOwners_owners, State.setOwners_station, putOwner_eq]
  refine ⟨?_, putBy_ascends (ids_ascend h), fun y hy => ?_⟩
  · rw [length_putBy_of_mem (ids_ascend h) (findOwner_mem hx) e]
    exact h.1
  · rcases (mem_putBy (ids_ascend h)).mp hy with rfl | ⟨hy, -⟩
    · exact ok
    · exact h.2.2 y hy

/-- A change of a record that keeps its contribution list in form keeps the table in form. -/
theorem ownersOrdered_touch {id : OwnerId} {f : Owner → Owner} (hid : ∀ o, (f o).id = o.id)
    (hf : ∀ o, RecordOk s.station o → RecordOk s.station (f o)) (h : OwnersOrdered s) :
    OwnersOrdered (s.touchOwner id f) := by
  unfold State.touchOwner
  split
  · exact h
  · rename_i o ho
    refine ownersOrdered_replace h ?_ ((hf o (recordOk_of_mem h
      (findOwner_mem ho))).of_contributions (by simp))
    rw [reevaluate_id, hid, findOwner_id s ho, ho]
    rfl

/-- A change that leaves ID and contributions alone. -/
theorem ownersOrdered_touch_plain {id : OwnerId} {f : Owner → Owner} (hid : ∀ o, (f o).id = o.id)
    (hc : ∀ o, (f o).contributions = o.contributions) (h : OwnersOrdered s) :
    OwnersOrdered (s.touchOwner id f) :=
  ownersOrdered_touch hid (fun o ok => ok.of_contributions (hc o)) h

theorem evictable_iff : s.evictable o = true ↔ Evictable s o := by
  simp [State.evictable, Evictable, and_assoc]

theorem evictionVictim_eq : s.evictionVictim =
    firstLeast (·.lastCharge) (s.owners.filter s.evictable) := by
  unfold State.evictionVictim firstLeast
  congr 1
  funext best o
  cases best <;> rfl

theorem evictionVictim_mem (h : OwnersOrdered s) {v : Owner} (hv : s.evictionVictim = some v) :
    v ∈ s.owners :=
  List.mem_of_mem_filter (firstLeast_some ((ids_ascend h).filter _)
    (evictionVictim_eq.symm.trans hv)).1

/-- A new record finds a place, or takes that of the victim (R5, R6). -/
theorem ownersOrdered_add (h : OwnersOrdered s) (ok : RecordOk s.station o)
  (ht : s.addOwner o = some t) :
    OwnersOrdered t := by
  have put : ∀ l : List Owner, Ascends (·.id.toNat) l → (∀ x ∈ l, RecordOk s.station x) →
      l.length < 4096 → OwnersOrdered (s.setOwners (putOwner o l)) := by
    intro l asc each len
    rw [ownersOrdered_iff, State.setOwners_owners, State.setOwners_station, putOwner_eq]
    refine ⟨(length_putBy_le asc).trans len, putBy_ascends asc, fun y hy => ?_⟩
    rcases (mem_putBy asc).mp hy with rfl | ⟨hy, -⟩
    · exact ok
    · exact each y hy
  unfold State.addOwner at ht
  split at ht
  · rename_i len
    cases ht
    exact put _ (ids_ascend h) h.2.2 len
  · split at ht
    · cases ht
    · rename_i v hv
      cases ht
      refine put _ ((ids_ascend h).filter _) (fun x hx => h.2.2 x (List.mem_of_mem_filter hx)) ?_
      have : (s.owners.filter (·.id != v.id)).length < s.owners.length :=
        List.length_filter_lt_length_iff_exists.mpr ⟨v, evictionVictim_mem h hv, by simp⟩
      exact this.trans_le h.1

theorem ownersOrdered_ensure {id : OwnerId} {cls : Fin 8} (h : OwnersOrdered s)
    (ht : s.ensureOwner id cls = some t) : OwnersOrdered t := by
  unfold State.ensureOwner at ht
  split at ht
  · cases ht; exact h
  · exact ownersOrdered_add h (recordOk_of_nil rfl) ht

theorem ownersOrdered_removeEntry {e : Reservation} {f : Owner → Owner} (hid : ∀ o, (f o).id = o.id)
    (hc : ∀ o, (f o).contributions = o.contributions) (h : OwnersOrdered s) :
    OwnersOrdered (s.removeEntry e f) :=
  ownersOrdered_touch_plain (fun _ => (hid _).trans rfl) (fun _ => (hc _).trans rfl)
    (ownersOrdered_congr (s := s) rfl rfl h)

theorem ownersOrdered_grant {id : OwnerId} {cls : Fin 8} {n v : Nat} {origin : Origin}
  {e : Reservation}
    (h : OwnersOrdered s) (ht : s.grant id cls n v origin = some (e, t)) : OwnersOrdered t := by
  unfold State.grant at ht
  dsimp only at ht
  split at ht
  · split at ht
    · cases ht
    · rename_i w hw
      cases ht
      exact ownersOrdered_touch_plain (fun _ => rfl) (fun _ => rfl)
        (ownersOrdered_congr (s := w) rfl rfl (ownersOrdered_ensure h hw))
  · cases ht

theorem ownersOrdered_admit {id : OwnerId} {cls : Fin 8} {n v : Nat} {origin : Origin}
    (h : OwnersOrdered s) : OwnersOrdered (s.admitBlocks id cls n v origin).2 := by
  have touched : OwnersOrdered (s.touchOwner id fun o => o) :=
    ownersOrdered_touch_plain (fun _ => rfl) (fun _ => rfl) h
  unfold State.admitBlocks
  dsimp only
  split
  · split
    · exact touched
    · rename_i hg
      exact ownersOrdered_grant touched hg
  · exact touched

/-- A USAGE entry of another station (R8 to R10). -/
theorem ownersOrdered_usageEntry {i : Fin 16} {g : Nat} {e : OwnerId × Nat} (hi : i ≠ s.station)
    (h : OwnersOrdered s) : OwnersOrdered (s.usageEntry i g e) := by
  unfold State.usageEntry
  split
  · exact h
  · split
    · exact h
    · rename_i o ho
      have replaced : OwnersOrdered (s.setOwners (putOwner
          (s.reevaluate (o.takeReport
            { station := i, blocks := e.2, generation := g }).1) s.owners)) := by
        have ok := (recordOk_of_mem h (findOwner_mem ho)).takeReport
          { station := i, blocks := e.2, generation := g } hi
        refine ownersOrdered_replace h ?_ (ok.of_contributions (by simp))
        rw [reevaluate_id, takeReport_id, findOwner_id s ho, ho]
        rfl
      dsimp only
      split
      · exact ownersOrdered_congr (s := s.setOwners _) rfl rfl replaced
      · exact replaced

theorem ownersOrdered_recordSend (h : OwnersOrdered s) : OwnersOrdered s.recordSend := by
  unfold State.recordSend
  generalize s.link.usageEntries = es
  induction es generalizing s with
  | nil => exact h
  | cons e es ih =>
    refine ih ?_
    dsimp only
    split
    · exact h
    · rename_i o ho
      refine ownersOrdered_replace h ?_ ((recordOk_of_mem h
        (findOwner_mem ho)).of_contributions rfl)
      dsimp only
      rw [findOwner_id s ho, ho]
      rfl

/-- The same change of every record. -/
theorem ownersOrdered_map {f : Owner → Owner} (hid : ∀ o, (f o).id = o.id)
    (hc : ∀ o, (f o).contributions = o.contributions) (h : OwnersOrdered s) :
    OwnersOrdered (s.setOwners (s.owners.map f)) := by
  rw [ownersOrdered_iff, State.setOwners_owners, State.setOwners_station]
  refine ⟨by rw [List.length_map]; exact h.1, ?_, fun y hy => ?_⟩
  · exact List.pairwise_map.mpr ((ids_ascend h).imp fun lt => by simpa only [hid] using lt)
  · obtain ⟨o, ho, rfl⟩ := List.mem_map.mp hy
    exact RecordOk.of_contributions (recordOk_of_mem h ho) (hc o)

end Sys2Proof.Proofs

/-! PROOFS. Every command keeps the form of the Owner Table: those whose frame leaves the table
alone at once, the others through the operations on records. With the bounds of the queues this
settles O54. -/

namespace Sys2Proof.Proofs

open Sys2Proof.Machine Sys2Proof.Safety

variable {l : List Block} {s t u : State}

theorem ownersOrdered_answer {kind tag : Nat} {st : Status} {b : Body} (h : OwnersOrdered s) :
    OwnersOrdered (s.answer kind tag st b) := ownersOrdered_of_changes (by decide)
      (answer_changes ..) h

/-- What a request's rule keeps in the part states that serve the request, its command keeps, if the
port does not matter for it. -/
theorem request_keeps_served {P : State → Prop} {α : Type} {kind : Nat} {parse : Bytes → Option α}
    {blank : Body} {carry : Nat → α → State → State}
    (port : ∀ s t, ChangesOnly [.port] s t → P s → P t)
    (rule : ∀ tag q s, servedIn s.part kind = true → P s → P (carry tag q s))
    (h : whenReleased s (takeRequest kind parse blank carry) = .next t) (hs : P s) : P t := by
  obtain ⟨-, rfl⟩ | ⟨-, rfl⟩ := next_of_whenReleased h
  · exact hs
  · have dropped := port _ _ (dropHead_changes s) hs
    have answered : ∀ {tag : Nat} {st : Status}, P (s.dropHead.answer kind tag st blank) :=
      port _ _ (answer_changes ..) dropped
    unfold takeRequest
    split
    · exact hs
    · split
      · dsimp only
        split
        · exact answered
        · split
          · exact answered
          · split
            · rename_i served
              exact rule _ _ _ served dropped
            · exact answered
      · exact hs

/-- What a request's rule keeps, its command keeps. -/
theorem request_keeps {P : State → Prop} {α : Type} {kind : Nat} {parse : Bytes → Option α}
    {blank : Body} {carry : Nat → α → State → State}
    (port : ∀ s t, ChangesOnly [.port] s t → P s → P t)
    (rule : ∀ tag q s, P s → P (carry tag q s))
    (h : whenReleased s (takeRequest kind parse blank carry) = .next t) (hs : P s) : P t :=
  request_keeps_served port (fun tag q s _ => rule tag q s) h hs

/-- What a rule keeps, a command outside the requests keeps. -/
theorem whenReleased_keeps {P : State → Prop} {f : State → State} (rule : P (f s))
    (h : whenReleased s f = .next t) (hs : P s) : P t := by
  obtain ⟨-, rfl⟩ | ⟨-, rfl⟩ := next_of_whenReleased h
  · exact hs
  · exact rule

theorem ite_keeps {P : State → Prop} {p : Prop} [Decidable p] {a b : State} (ha : p → P a)
    (hb : ¬p → P b) : P (if p then a else b) := by
  by_cases hp : p
  · rw [if_pos hp]; exact ha hp
  · rw [if_neg hp]; exact hb hp

theorem foldl_keeps {P : State → Prop} {α : Type} {f : State → α → State} (h : ∀ s a, P s → P
  (f s a))
    (xs : List α) (s : State) (hs : P s) : P (xs.foldl f s) := by
  induction xs generalizing s with
  | nil => exact hs
  | cons a as ih => exact ih _ (h s a hs)

/-! ### The rules that change owner records -/

theorem reserveRequest_ordered (tag : Nat) (q : ReserveReq) (s : State) (h : OwnersOrdered s) :
    OwnersOrdered (reserveRequest tag q s) := by
  unfold reserveRequest
  refine ite_keeps (fun _ => ownersOrdered_answer h) fun _ => ite_keeps
    (fun _ => ownersOrdered_answer h) fun _ => ?_
  split
  · exact ownersOrdered_answer h
  · exact ownersOrdered_answer (ownersOrdered_admit h)

theorem cancelRequest_ordered (tag handle : Nat) (s : State) (h : OwnersOrdered s) :
    OwnersOrdered (cancelRequest tag handle s) := by
  unfold cancelRequest
  refine ite_keeps (fun _ => ownersOrdered_answer h) fun _ => ?_
  split
  · exact ownersOrdered_answer h
  · exact ite_keeps (fun _ => ownersOrdered_answer
      (ownersOrdered_removeEntry (fun _ => rfl) (fun _ => rfl) h)) fun _ => ownersOrdered_answer h

theorem commitRequest_ordered (tag : Nat) (q : CommitReq) (s : State) (h : OwnersOrdered s) :
    OwnersOrdered (commitRequest tag q s) := by
  have finish : ∀ {u st charged used quota}, OwnersOrdered u →
      OwnersOrdered (u.finishCommit tag q st charged used quota) :=
    ownersOrdered_of_changes (by decide) (finishCommit_changes ..)
  have noted : ∀ {u id n}, OwnersOrdered u → OwnersOrdered (u.usedChanged id n) :=
    ownersOrdered_of_changes (by decide) (usedChanged_changes ..)
  unfold commitRequest
  refine ite_keeps (fun _ => ownersOrdered_answer h) fun _ => ?_
  split
  · exact ownersOrdered_answer h
  split
  · unfold commitLate
    split
    · exact finish h
    · have raised := ownersOrdered_of_changes (by decide)
        (raise_changes s .lateCommit q.owner.toNat) h
      dsimp only
      split
      · exact finish raised
      · rename_i made
        exact finish (noted (ownersOrdered_touch_plain (fun _ => rfl) (fun _ => rfl)
          (ownersOrdered_ensure raised made)))
  · exact ite_keeps (fun _ => ownersOrdered_answer h) fun _ =>
      finish (noted (ownersOrdered_removeEntry (fun _ => rfl) (fun _ => rfl) h))

theorem releaseQuota_ordered (id : OwnerId) (b : Nat) (h : OwnersOrdered s) :
    OwnersOrdered (s.releaseQuota id b) := by
  unfold State.releaseQuota
  split
  · exact h
  · have touched : OwnersOrdered (s.touchOwner id fun o =>
        { o with used := o.used - b, lastCharge := s.now }) :=
      ownersOrdered_touch_plain (fun _ => rfl) (fun _ => rfl) h
    exact ownersOrdered_of_changes (by decide) (usedChanged_changes ..)
      (ite_keeps (fun _ => ownersOrdered_of_changes (by decide) (raise_changes ..) touched)
        fun _ => touched)

/-- What a RELEASE does behind its quota side. -/
theorem releaseRest_changes (tag : Nat) (q : ReleaseReq) (i : Fin 8) (v : Volume) (st : Status)
    (b : Nat → Nat → State → Body) (u : State) :
    ChangesOnly [.cat, .pool, .dup, .port] u
      (let r := u.releaseRetention i v q.birth q.blocks
       let a := r.2.2.appendExtent q.volume q.start q.length
       let w := a.answer 5 tag st (b r.1 r.2.1 a)
       (if r.2.1 = 0 then w else w.evaluate i).issueIfFreed r.2.2.poolFree) :=
  andThen (by decide) (thenUnless (by decide) (andThen (by decide) (andThen (by decide)
    (within (by decide) (releaseRetention_changes ..)) (appendExtent_changes ..))
      (answer_changes ..))
    (evaluate_changes ..)) (issueIfFreed_changes ..)

theorem releaseRequest_ordered (tag : Nat) (q : ReleaseReq) (s : State) (h : OwnersOrdered s) :
    OwnersOrdered (releaseRequest tag q s) := by
  unfold releaseRequest
  refine ite_keeps (fun _ => ownersOrdered_answer h) fun _ => ?_
  split
  · exact ownersOrdered_answer h
  · refine ite_keeps (fun _ => ownersOrdered_answer h) fun _ => ?_
    exact ownersOrdered_of_changes (by decide) (releaseRest_changes tag q _ _ _
      (fun freed retained a =>
      .release (a.usedOf q.owner) freed retained) _) (releaseQuota_ordered _ _ h)

theorem restoreEndStep_ordered (c : Fin 4) (h : OwnersOrdered s) : OwnersOrdered
  (s.restoreEndStep c) := by
  unfold State.restoreEndStep
  split
  · exact h
  · rename_i x _
    refine ite_keeps (fun _ => ?_) fun _ => h
    refine ownersOrdered_of_changes (l := night ++ [.rsc]) (by decide) (andThen (by decide)
      (andThen (by decide)
      (andThen (by decide) (andThen (by decide) (within (by decide) (freeContext_changes ..))
      (notice_changes ..)) (restoreEnds_changes ..)) (evaluateIfOver_changes ..))
      (flushEvent_changes ..)) (s := match x.handle.bind s.entryByHandle with
        | some e => s.removeEntry e fun o => o
        | none => s) ?_
    split
    · exact ownersOrdered_removeEntry (fun _ => rfl) (fun _ => rfl) h
    · exact h

/-- An arrival of room behind the ends of the restore jobs. -/
theorem roomRest_changes (s : State) : ChangesOnly [.rsc, .cat, .pool, .dup, .port] s
    (slots8.foldl State.dupEndStep s).evaluateWaiting.placeCuts.placeCopies.issuePass :=
  andThen (by decide) (andThen (by decide) (andThen (by decide) (andThen (by decide)
    (.foldl (fun u i => within (by decide) (dupEndStep_changes u i)) _ _)
      (evaluateWaiting_changes _))
    (placeCuts_changes _)) (placeCopies_changes _)) (issuePass_changes _)

theorem roomArrives_ordered (h : OwnersOrdered s) : OwnersOrdered s.roomArrives := by
  have job : ∀ (u : State) (c : Fin 4), OwnersOrdered u →
      OwnersOrdered ((u.assemblyTimeout c).restoreEndStep c) := fun u c hu =>
    restoreEndStep_ordered c (ownersOrdered_of_changes (by decide) (assemblyTimeout_changes u c) hu)
  have jobs := foldl_keeps job slots4 _
    (ownersOrdered_of_changes (by decide) (flushEvent_changes s) h)
  exact ownersOrdered_of_changes (by decide) (roomRest_changes _) jobs

/-- A RESTORE_GO (R113): the admission, and what follows it. -/
theorem goRequest_ordered (tag : Nat) (q : JobReq) (s : State) (h : OwnersOrdered s) :
    OwnersOrdered (goRequest tag q s) := by
  have freed : ∀ {u c x st b}, OwnersOrdered u →
      OwnersOrdered (((State.freeContext u c x).answer 13 tag st b).evaluateIfOver x.sourceSlot) :=
    ownersOrdered_of_changes (by decide) (freeAnswerEvaluate_changes ..)
  have started : ∀ {u c x n st b}, OwnersOrdered u →
      OwnersOrdered ((((State.startJob u c x n).answer 13 tag st b)).placeCopies) :=
    ownersOrdered_of_changes (l := [.rsc, .dup, .port]) (by decide) (andThen (by decide)
      (andThen (by decide) (within (by decide) (startJob_changes ..)) (answer_changes ..))
      (placeCopies_changes _))
  unfold goRequest
  refine ite_keeps (fun _ => ownersOrdered_answer h) fun _ => ?_
  split
  · exact ownersOrdered_answer h
  · refine ite_keeps (fun _ => ownersOrdered_answer h) fun _ => ite_keeps (fun _ => freed h)
      fun _ => ?_
    split
    · unfold goTracked
      exact ite_keeps (fun _ => started (ownersOrdered_admit h)) fun _ => freed
        (ownersOrdered_admit h)
    · exact started h

theorem cancelJobRequest_ordered (tag : Nat) (q : JobReq) (s : State) (h : OwnersOrdered s) :
    OwnersOrdered (cancelJobRequest tag q s) := by
  unfold cancelJobRequest
  refine ite_keeps (fun _ => ownersOrdered_answer h) fun _ => ?_
  split
  · exact ownersOrdered_answer h
  · split
    · exact ownersOrdered_of_changes (by decide) (freeAnswerEvaluate_changes ..) h
    · exact restoreEndStep_ordered _ (ownersOrdered_of_changes (l := [.rsc, .port]) (by decide)
        (andThen (by decide) (andThen (by decide) (within (by decide) (putContext_changes ..))
        (testJobEnd_changes ..)) (answer_changes ..)) h)
    · exact restoreEndStep_ordered _ (ownersOrdered_of_changes (l := [.rsc, .port]) (by decide)
        (andThen (by decide) (within (by decide) (testJobEnd_changes ..)) (answer_changes ..)) h)

theorem chargeRestore_ordered (x : Context) (n : Nat) (h : OwnersOrdered s) :
    OwnersOrdered (s.chargeRestore x n) := by
  unfold State.chargeRestore
  split
  · exact h
  · exact ownersOrdered_of_changes (by decide) (usedChanged_changes ..)
      (ownersOrdered_touch_plain (fun _ => rfl) (fun _ => rfl) (ownersOrdered_congr
        (s := s) rfl rfl h))

theorem copiedRequest_ordered (tag : Nat) (q : CopiedReq) (s : State) (h : OwnersOrdered s) :
    OwnersOrdered (copiedRequest tag q s) := by
  unfold copiedRequest
  refine ite_keeps (fun _ => ownersOrdered_answer h) fun _ => ?_
  split
  · exact ownersOrdered_answer h
  split
  · exact ownersOrdered_answer h
  · refine ite_keeps (fun _ => ownersOrdered_answer h) fun _ => ?_
    refine ownersOrdered_of_changes (by decide) (issueIfFreed_changes ..) ?_
    have copies : ∀ {u p} [Decidable p], OwnersOrdered u →
        OwnersOrdered (if p then State.placeCopies u else u) := fun hu =>
      ite_keeps (fun _ => ownersOrdered_of_changes (by decide) (placeCopies_changes _) hu)
        fun _ => hu
    refine copies (restoreEndStep_ordered _ (ownersOrdered_answer
      (ownersOrdered_of_changes (by decide) (testJobEnd_changes ..) ?_)))
    have put : ∀ {c y}, OwnersOrdered (s.putContext c y) := ownersOrdered_congr (s := s) rfl rfl h
    exact ite_keeps (fun _ => ownersOrdered_of_changes (by decide) (appendCurrent_changes ..)
      (chargeRestore_ordered _ _ put)) fun _ => put

theorem peerFrame_ordered (i : Fin 16) (f : Frame) (burst : Bytes) (hi : i ≠ s.station)
    (h : OwnersOrdered s) : OwnersOrdered (s.peerFrame i f burst) := by
  unfold State.peerFrame
  refine ite_keeps (fun _ => h) fun _ => ?_
  have heard : ∀ {p}, OwnersOrdered (s.putPeer i p) := ownersOrdered_congr (s := s) rfl rfl h
  refine ite_keeps (fun _ => ?_) fun _ => heard
  refine ownersOrdered_of_changes (by decide) (flushEvent_changes _) ?_
  have entries := foldl_keeps (P := fun u => OwnersOrdered u ∧ i ≠ u.station)
    (fun u e hu => ⟨ownersOrdered_usageEntry hu.2 hu.1,
      (usageEntry_changes u i f.generation e).1.2.2.1 ▸ hu.2⟩)
    (usageEntriesOf burst f.fifth) (s.putPeer i ((s.peer i).hear f burst s.now)) ⟨heard, hi⟩
  exact entries.1

theorem frameSent_ordered (h : OwnersOrdered s) : OwnersOrdered s.frameSent := by
  unfold State.frameSent
  refine ite_keeps (fun _ => ownersOrdered_congr (s := s) rfl rfl h) fun _ => ?_
  exact ownersOrdered_of_changes (by decide) (composeUsage_changes _)
    (ownersOrdered_of_changes (by decide) (setLink_changes ..) (ownersOrdered_recordSend h))

theorem sweepVisit_ordered (w : Sweep) (o : Owner) (h : OwnersOrdered s) :
    OwnersOrdered (s.sweepVisit w o) := by
  have marked : ∀ x, OwnersOrdered (s.setLink x) := fun _ => ownersOrdered_congr (s := s) rfl rfl h
  exact ite_keeps (fun _ => ownersOrdered_touch (fun _ => rfl) (fun _ ok => ok.filter _ _)
    (marked _))
    fun _ => marked _

theorem amendRequest_ordered (tag : Nat) (q : AmendReq) (s : State) (h : OwnersOrdered s) :
    OwnersOrdered (amendRequest tag q s) := by
  have owner : ∀ soft, OwnersOrdered (amendOwner tag q soft s) := by
    intro soft
    unfold amendOwner
    refine ite_keeps (fun _ => ownersOrdered_answer h) fun _ => ?_
    split
    · exact ownersOrdered_answer h
    · refine ite_keeps (fun _ => ownersOrdered_answer ?_) fun _ => ownersOrdered_answer h
      exact ite_keeps (fun _ => ownersOrdered_touch_plain (fun _ => rfl) (fun _ => rfl) h)
        fun _ => h
  unfold amendRequest
  refine ite_keeps (fun _ => ownersOrdered_answer h) fun _ => ?_
  split
  · exact ownersOrdered_answer h
  · exact owner true
  · exact owner false
  · exact ownersOrdered_of_changes (by decide) (amendSnapshot_changes ..) h
  · exact ownersOrdered_of_changes (by decide) (amendVolume_changes ..) h

theorem inspectRequest_ordered (tag : Nat) (q : InspectReq) (s : State) (h : OwnersOrdered s) :
    OwnersOrdered (inspectRequest tag q s) := by
  unfold inspectRequest
  refine ite_keeps (fun _ => ownersOrdered_answer h) fun _ => ?_
  dsimp only
  split
  · exact ownersOrdered_answer h
  · exact ownersOrdered_answer h
  · refine ite_keeps (fun _ => ownersOrdered_answer h) fun _ => ?_
    refine ownersOrdered_of_changes (by decide) (answerPart_changes ..) ?_
    exact ite_keeps (fun _ => ownersOrdered_touch_plain (fun _ => rfl) (fun _ => rfl) h) fun _ => h

theorem loadOwnerRequest_ordered (tag : Nat) (q : LoadOwnerReq) (s : State) (h : OwnersOrdered s) :
    OwnersOrdered (loadOwnerRequest tag q s) := by
  unfold loadOwnerRequest
  refine ite_keeps (fun _ => ownersOrdered_answer h) fun _ => ?_
  split
  · exact ownersOrdered_answer h
  split
  · exact ownersOrdered_answer h
  · rename_i made
    refine ownersOrdered_answer ?_
    unfold State.loadOwner at made
    split at made
    · cases made
      exact ownersOrdered_touch_plain (fun _ => rfl) (fun _ => rfl) h
    · exact ownersOrdered_add h (recordOk_of_nil (by simp [State.loadedOwner])) made

theorem loadDoneRequest_ordered (tag generation : Nat) (s : State) (h : OwnersOrdered s) :
    OwnersOrdered (loadDoneRequest tag generation s) := by
  unfold loadDoneRequest
  refine ite_keeps (fun _ => ownersOrdered_answer h) fun _ => ?_
  refine foldl_keeps (fun u i hu => ownersOrdered_of_changes (by decide)
    (evaluate_changes u i) hu) _ _ ?_
  refine ownersOrdered_of_changes (by decide) (announceServing_changes _) (ownersOrdered_answer ?_)
  refine ownersOrdered_map (fun _ => by simp) (fun _ => by simp) ?_
  have based := ownersOrdered_of_changes (by decide) (removeBases_changes _)
    (ownersOrdered_congr (s := s) (t := (s.setLink
      { s.link with generation }).seedRng generation) rfl rfl h)
  exact ownersOrdered_congr (s := State.removeBases _) rfl rfl based

/-! ### The commands -/

/-- A table without records is in form. -/
theorem ownersOrdered_nil (h : s.owners = []) : OwnersOrdered s := by
  simp [ownersOrdered_iff, h]

theorem enterChecked_ordered (h : OwnersOrdered s) : OwnersOrdered s.enterChecked :=
  ite_keeps (fun _ => ownersOrdered_congr (s := s) rfl rfl h) fun _ =>
    ownersOrdered_of_changes (by decide) (flushEvent_changes _) (ownersOrdered_congr
      (s := s) rfl rfl h)

/-- Every command keeps the form of the Owner Table. -/
theorem exec_ordered (c : Instr) (s t : State) (h : exec c s = .next t) (hs : OwnersOrdered s) :
    OwnersOrdered t := by
  have port : ∀ s t, ChangesOnly [.port] s t → OwnersOrdered s → OwnersOrdered t :=
    fun _ _ => ownersOrdered_of_changes (by decide)
  by_cases framed : ∃ l, mayChange c = some l ∧ Block.owners ∉ l
  · obtain ⟨l, hl, hp⟩ := framed
    exact ownersOrdered_of_changes hp (exec_changes c hl h) hs
  cases c <;> simp only [exec] at h
  case powerOnReset => cases h; exact ownersOrdered_nil rfl
  case rstAsserted => cases h; exact hs
  case configCheck =>
    refine whenReleased_keeps ?_ h hs
    refine ite_keeps (fun _ => ?_) fun _ => hs
    dsimp only
    split
    · exact enterChecked_ordered (ownersOrdered_congr (s := s) rfl rfl hs)
    · exact enterChecked_ordered (ownersOrdered_congr (s := s) rfl rfl hs)
  case restart =>
    exact request_keeps port (fun _ _ u _ => enterChecked_ordered (ownersOrdered_answer
      (ownersOrdered_nil (s := u.restarted) rfl))) h hs
  case loadDone => exact request_keeps port loadDoneRequest_ordered h hs
  case read =>
    refine whenReleased_keeps ?_ h hs
    refine ite_keeps (fun _ => hs) fun _ => ?_
    split
    · exact hs
    · refine ite_keeps (fun _ => ?_) fun _ => hs
      have removed : ∀ p, OwnersOrdered (s.setPort p) := fun _ => ownersOrdered_congr
        (s := s) rfl rfl hs
      exact ite_keeps (fun _ => roomArrives_ordered (removed _)) fun _ => removed _
  case reserve => exact request_keeps port reserveRequest_ordered h hs
  case cancel => exact request_keeps port cancelRequest_ordered h hs
  case commit => exact request_keeps port commitRequest_ordered h hs
  case release => exact request_keeps port releaseRequest_ordered h hs
  case restoreGo => exact request_keeps port goRequest_ordered h hs
  case restoreCancel => exact request_keeps port cancelJobRequest_ordered h hs
  case copied => exact request_keeps port copiedRequest_ordered h hs
  case restoreEndStep => exact whenReleased_keeps (restoreEndStep_ordered _ hs) h hs
  case inspect => exact request_keeps port inspectRequest_ordered h hs
  case amend => exact request_keeps port amendRequest_ordered h hs
  case loadOwner => exact request_keeps port loadOwnerRequest_ordered h hs
  case leaseExpiry =>
    refine whenReleased_keeps ?_ h hs
    split
    · exact hs
    · exact ite_keeps (fun _ => ownersOrdered_of_changes (by decide) ((raise_changes ..).trans
        (flushEvent_changes _))
        (ownersOrdered_removeEntry (fun _ => rfl) (fun _ => rfl) hs)) fun _ => hs
  case warmUpEnd =>
    refine whenReleased_keeps ?_ h hs
    split
    · exact hs
    · exact ite_keeps (fun _ => ownersOrdered_touch_plain (fun _ => rfl) (fun _ => rfl) hs)
        fun _ => hs
  case graceDeadlineExpiry =>
    refine whenReleased_keeps ?_ h hs
    split
    · exact hs
    · exact ite_keeps (fun _ => ownersOrdered_touch_plain (fun _ => rfl) (fun _ => rfl) hs)
        fun _ => hs
  case forgetSweepVisit =>
    refine whenReleased_keeps ?_ h hs
    split
    · exact hs
    split
    · exact hs
    · exact ite_keeps (fun _ => sweepVisit_ordered _ _ hs) fun _ => hs
  case attemptSuccess =>
    refine whenReleased_keeps (ite_keeps (fun _ => ?_) fun _ => hs) h hs
    exact ownersOrdered_of_changes (by decide) (takeSlot_changes _) (frameSent_ordered hs)
  case frameReceived burst =>
    refine whenReleased_keeps ?_ h hs
    refine ite_keeps (fun _ => hs) fun _ => ite_keeps (fun _ => ?_) fun _ => ite_keeps (fun _ => ?_)
      fun _ =>
      ite_keeps (fun _ => ?_) fun own => ?_
    · exact ownersOrdered_of_changes (by decide) (linkError_changes ..) hs
    · exact ownersOrdered_of_changes (by decide) (linkError_changes ..) hs
    · exact ownersOrdered_of_changes (by decide) (stationConflict_changes _) hs
    · split
      · exact peerFrame_ordered _ _ _ (fun e => own (congrArg Fin.val e)) hs
      · exact hs
  all_goals exact absurd ⟨_, rfl, by decide⟩ framed

theorem step_ownersOrdered (h : step s = .next t) (hs : OwnersOrdered s) : OwnersOrdered t := by
  refine step_keeps (fun _ _ hs => hs) (fun s hs => ?_) exec_ordered h hs
  unfold State.tick
  exact ite_keeps (fun _ => hs) fun _ => ownersOrdered_congr (s := s) rfl rfl hs

/-- Settles O54: the queues by counting the records that a command may place, the Owner Table by the
form of the records that a command may put. -/
theorem stepKeepsQueuesAndOwnersInForm : Obligations.StepKeepsQueuesAndOwnersInForm :=
  fun _ _ h => ⟨step_queuesBounded h, step_ownersOrdered h⟩

end Sys2Proof.Proofs

/-! PROOFS. The reservation table (R26, R27): the lowest free slot is free, the next handle is not
in use, and every step keeps the table in form. -/

namespace Sys2Proof.Proofs

open Sys2Proof.Machine Sys2Proof.Safety

variable {l : List Block} {s t u w : State} {es : List Reservation} {e : Reservation} {i : Nat}

/-! ### Free slots and free handles -/

/-- Natural numbers below n that ascend are at most n. -/
theorem Ascends.length_le {α : Type} {key : α → Nat} {xs : List α} {n : Nat} (h : Ascends key xs)
    (below : ∀ x ∈ xs, key x < n) : xs.length ≤ n := by
  have nodup : (xs.map key).Nodup := List.pairwise_map.mpr (h.imp fun lt => lt.ne)
  have sub : xs.map key ⊆ List.range n := by
    intro k hk
    obtain ⟨x, hx, rfl⟩ := List.mem_map.mp hk
    exact List.mem_range.mpr (below x hx)
  simpa using (List.subperm_of_subset nodup sub).length_le

theorem le_lowestFreeSlot (i : Nat) (es : List Reservation) : i ≤ lowestFreeSlot i es := by
  induction es generalizing i with
  | nil => exact le_rfl
  | cons e es ih =>
    unfold lowestFreeSlot
    split
    · exact (Nat.le_succ i).trans (ih _)
    · exact le_rfl

/-- No entry of an ascending list stands in the lowest free slot (R26). -/
theorem lowestFreeSlot_free (h : Ascends (·.slot) es) (from_i : ∀ e ∈ es, i ≤ e.slot) :
    ∀ e ∈ es, e.slot ≠ lowestFreeSlot i es := by
  induction es generalizing i with
  | nil => simp
  | cons x xs ih =>
    obtain ⟨hx, hxs⟩ := List.pairwise_cons.mp h
    have first := from_i x (by simp)
    unfold lowestFreeSlot
    intro e he
    split
    · rename_i taken
      rcases List.mem_cons.mp he with rfl | he
      · have := le_lowestFreeSlot (i + 1) xs
        omega
      · refine ih hxs (fun y hy => ?_) e he
        have below : x.slot < y.slot := hx y hy
        omega
    · rename_i free
      rcases List.mem_cons.mp he with rfl | he
      · exact free
      · have above : x.slot < e.slot := hx e he
        omega

theorem putEntry_eq (h : ∀ x ∈ es, x.slot ≠ e.slot) : putEntry e es = putBy (·.slot) e es := by
  induction es with
  | nil => rfl
  | cons x xs ih =>
    have hx := h x (by simp)
    simp only [putEntry, putBy, ih fun y hy => h y (by simp [hy]), hx.symm, if_false]

/-- The candidate number k behind `last`, counting from 0 (R27). -/
def handleCandidate (last k : Nat) : Nat := (last + k) % 65535 + 1

/-- The first candidate that is not in use is taken (R27). -/
theorem nextHandle_spec {used : List Nat} {fuel last : Nat} (bound : last ≤ 65535)
    (free : ∃ k < fuel, handleCandidate last k ∉ used) :
    nextHandle used fuel last ∉ used ∧ 1 ≤ nextHandle used fuel last ∧
      nextHandle used fuel last ≤ 65535 := by
  induction fuel generalizing last with
  | zero => obtain ⟨k, hk, -⟩ := free; cases hk
  | succ fuel ih =>
    have candidate : (if last ≥ 65535 then 1 else last + 1) = handleCandidate last 0 := by
      unfold handleCandidate
      split <;> omega
    unfold nextHandle
    rw [candidate]
    have range : 1 ≤ handleCandidate last 0 ∧ handleCandidate last 0 ≤ 65535 := by
      unfold handleCandidate
      omega
    dsimp only
    split
    · rename_i inUse
      refine ih range.2 ?_
      obtain ⟨k, hk, out⟩ := free
      cases k with
      | zero => exact absurd inUse out
      | succ k =>
        refine ⟨k, by omega, ?_⟩
        have : handleCandidate (handleCandidate last 0) k = handleCandidate last (k + 1) := by
          unfold handleCandidate
          omega
        rw [this]
        exact out
    · rename_i out
      exact ⟨out, range⟩

/-- Among 513 candidates one is free of at most 512 handles in use (R27). -/
theorem handleCandidate_free {used : List Nat} (last : Nat) (few : used.length ≤ 512) :
    ∃ k < 513, handleCandidate last k ∉ used := by
  by_contra none
  push Not at none
  have nodup : ((List.range 513).map (handleCandidate last)).Nodup := by
    refine List.Nodup.map_on (fun a ha b hb eq => ?_) List.nodup_range
    rw [List.mem_range] at ha hb
    unfold handleCandidate at eq
    omega
  have sub : (List.range 513).map (handleCandidate last) ⊆ used := by
    intro h hh
    obtain ⟨k, hk, rfl⟩ := List.mem_map.mp hh
    exact none k (List.mem_range.mp hk)
  have := (List.subperm_of_subset nodup sub).length_le
  simp only [List.length_map, List.length_range] at this
  omega

/-! ### The operations on entries -/

/-- The reservation table is in form (R26). -/
def AdmOk (a : Admission) : Prop :=
  a.entries.length ≤ 512 ∧ Ascends (·.slot) a.entries ∧
    a.entries.Pairwise (fun x y => x.handle ≠ y.handle) ∧ a.handleCounter ≤ 65535 ∧
    ∀ e ∈ a.entries, e.slot < 512 ∧ 1 ≤ e.handle ∧ e.handle ≤ 65535

theorem reservationTableOk_iff : ReservationTableOk s ↔ AdmOk s.adm := Iff.rfl

theorem admOk_filter {a : Admission} (p : Reservation → Bool) (h : AdmOk a) :
    AdmOk { a with entries := a.entries.filter p } := by
  obtain ⟨len, slots, handles, counter, each⟩ := h
  exact ⟨(List.length_filter_le ..).trans len, slots.filter _, handles.filter _, counter,
    fun e he => each e (List.mem_of_mem_filter he)⟩

theorem admOk_map {a : Admission} {f : Reservation → Reservation} (hslot : ∀ e, (f e).slot = e.slot)
    (hhandle : ∀ e, (f e).handle = e.handle) (h : AdmOk a) :
    AdmOk { a with entries := a.entries.map f } := by
  obtain ⟨len, slots, handles, counter, each⟩ := h
  refine ⟨by simpa using len, ?_, ?_, counter, fun e he => ?_⟩
  · exact List.pairwise_map.mpr (slots.imp fun lt => by simpa only [hslot] using lt)
  · exact List.pairwise_map.mpr (handles.imp fun ne => by simpa only [hhandle] using ne)
  · obtain ⟨x, hx, rfl⟩ := List.mem_map.mp he
    rw [hslot, hhandle]
    exact each x hx

/-- The slot and the handle that a grant gives are free (R26, R27). -/
theorem AdmOk.fresh {a : Admission} (h : AdmOk a) :
    (∀ e ∈ a.entries, e.slot ≠ lowestFreeSlot 0 a.entries) ∧
      nextHandle (a.entries.map (·.handle)) 513 a.handleCounter ∉ a.entries.map (·.handle) ∧
      1 ≤ nextHandle (a.entries.map (·.handle)) 513 a.handleCounter ∧
      nextHandle (a.entries.map (·.handle)) 513 a.handleCounter ≤ 65535 := by
  obtain ⟨len, slots, -, counter, -⟩ := h
  exact ⟨lowestFreeSlot_free slots fun _ _ => Nat.zero_le _,
    nextHandle_spec counter (handleCandidate_free _ (by simpa using len))⟩

/-- An entry in the lowest free slot under the next handle (R31). -/
theorem admOk_put {a : Admission} (h : AdmOk a) (hslot : e.slot = lowestFreeSlot 0 a.entries)
    (hhandle : e.handle = nextHandle (a.entries.map (·.handle)) 513 a.handleCounter)
    (room : lowestFreeSlot 0 a.entries < 512) :
    AdmOk { entries := putEntry e a.entries, handleCounter := e.handle } := by
  obtain ⟨freeSlot, freeHandle, low, high⟩ := h.fresh
  obtain ⟨-, slots, handles, -, each⟩ := h
  rw [← hslot] at freeSlot room
  rw [← hhandle] at freeHandle low high
  have inForm : ∀ x ∈ putEntry e a.entries, x.slot < 512 ∧ 1 ≤ x.handle ∧ x.handle ≤ 65535 := by
    intro x hx
    rcases mem_putEntry.mp hx with rfl | hx
    · exact ⟨room, low, high⟩
    · exact each x hx
  have ascends : Ascends (·.slot) (putEntry e a.entries) := by
    rw [putEntry_eq freeSlot]
    exact putBy_ascends slots
  refine ⟨ascends.length_le fun x hx => (inForm x hx).1, ascends, ?_, high, inForm⟩
  refine ((putEntry_perm e a.entries).pairwise_iff fun ne => Ne.symm ne).mpr
    (List.pairwise_cons.mpr ⟨fun x hx eq => ?_, handles⟩)
  exact freeHandle (List.mem_map.mpr ⟨x, hx, eq.symm⟩)

/-! ### Grants and admissions -/

/-- The entry that a grant makes (R31). -/
def grantedEntry (s : State) (id : OwnerId) (cls : Fin 8) (n volume : Nat) (origin : Origin) :
    Reservation :=
  { slot := lowestFreeSlot 0 s.adm.entries
    handle := nextHandle (s.adm.entries.map (·.handle)) 513 s.adm.handleCounter
    owner := id, blocks := n, volume
    lease := match origin with
      | .write => some (s.leaseFromNow cls)
      | .restore _ => none
    origin, grantTime := s.now }

/-- A change of the Owner Table leaves the lease that a grant gives. -/
theorem leaseFromNow_of_owners (h : ChangesOnly [.owners] s w) (cls : Fin 8) :
    w.leaseFromNow cls = s.leaseFromNow cls := by
  have time : w.time = s.time := h.2 .time (by decide)
  have image : w.image = s.image := h.1.2.2.2.2.1
  simp only [State.leaseFromNow, State.now, State.classRec, State.cfg, time, image]

/-- What a grant does: there is a free slot, the owner has a record, the entry joins the table and
its blocks the record (R31). -/
theorem grant_some {id : OwnerId} {cls : Fin 8} {n v : Nat} {origin : Origin}
    (h : s.grant id cls n v origin = some (e, t)) :
    lowestFreeSlot 0 s.adm.entries < 512 ∧ e = grantedEntry s id cls n v origin ∧
      ∃ w, s.ensureOwner id cls = some w ∧
        t = (w.setAdm { entries := putEntry e s.adm.entries, handleCounter := e.handle }).touchOwner
          id
          fun o => { o with reserved := o.reserved + n, lastCharge := s.now } := by
  unfold State.grant at h
  dsimp only at h
  split at h
  · rename_i room
    split at h
    · cases h
    · rename_i w made
      have only := ensureOwner_changes s id cls made
      have adm : w.adm = s.adm := only.2 .adm (by decide)
      have now : w.now = s.now := congrArg Timebase.uptime (only.2 .time (by decide))
      simp only [adm, now, leaseFromNow_of_owners only] at h
      cases h
      refine ⟨room, rfl, w, made, ?_⟩
      rw [← now]
      rfl
  · cases h

/-- The state in which an admission decides: the owner's record re-evaluated (R29). -/
abbrev admitting (s : State) (id : OwnerId) : State := s.touchOwner id fun o => o

/-- What an admission does: a refusal, which leaves the re-evaluated state, or a grant (R29 to R31).
-/
theorem admitBlocks_cases (s : State) (id : OwnerId) (cls : Fin 8) (n v : Nat) (origin : Origin) :
    ((s.admitBlocks id cls n v origin).2 = admitting s id ∧
      (s.admitBlocks id cls n v origin).1.status ≠ .ok ∧
      (s.admitBlocks id cls n v origin).1.status ≠ .soft) ∨
    ∃ e, (admitting s id).grant id cls n v origin = some (e, (s.admitBlocks id cls n v origin).2) ∧
      (s.admitBlocks id cls n v origin).1.handle = e.handle ∧
      (s.admitBlocks id cls n v origin).1.lease = e.lease ∧
      ((s.admitBlocks id cls n v origin).1.status = .ok ∨
        (s.admitBlocks id cls n v origin).1.status = .soft) := by
  unfold State.admitBlocks
  dsimp only
  split
  · rename_i admitted
    split
    · exact .inl ⟨rfl, by simp, by simp⟩
    · rename_i e t granted
      exact .inr ⟨e, granted, rfl, rfl, admitted⟩
  · rename_i refused
    exact .inl ⟨rfl, fun h => refused (.inl h), fun h => refused (.inr h)⟩

end Sys2Proof.Proofs

/-! PROOFS. The ledger (R3, R26, R43 to R45): the reservation table, the blocks reserved in the
owner records and the restore jobs that hold entries. Operation by operation, what each keeps. -/

namespace Sys2Proof.Proofs

open Sys2Proof.Machine Sys2Proof.Safety

variable {p : Prop} {l : List Block} {s t u w : State} {es : List Reservation} {e : Reservation}
  {r : OwnerId → Option Nat} {ctx : Fin 4 → Option Context} {c : Fin 4} {x y : Context}
  {id k : OwnerId} {o : Owner} {f : Owner → Owner} {n : Nat}

/-! ### The figures compared -/

/-- The blocks reserved in an owner's record, if it has one. -/
def reservedOf (s : State) (id : OwnerId) : Option Nat := (s.findOwner id).map (·.reserved)

/-- The blocks of an owner's entries. -/
def blocksOf (es : List Reservation) (id : OwnerId) : Nat :=
  ((es.filter (·.owner == id)).map (·.blocks)).sum

/-- Each record's reserved figure is the sum of its owner's entries, and each entry's owner has a
record (R3). -/
def Tallies (r : OwnerId → Option Nat) (es : List Reservation) : Prop :=
  (∀ id, ∀ n ∈ r id, n = blocksOf es id) ∧ ∀ e ∈ es, r e.owner ≠ none

/-- The entries and the restore jobs agree (R43 to R45). -/
structure JobsOk (es : List Reservation) (ctx : Fin 4 → Option Context) : Prop where
  write : ∀ e ∈ es, e.origin = .write → e.lease.isSome = true
  restore : ∀ e ∈ es, ∀ c, e.origin = .restore c →
    e.lease = none ∧ ∃ x, ctx c = some x ∧ x.handle = some e.handle
  tracked : ∀ c x h, ctx c = some x → x.handle = some h → ∃ e ∈ es, e.handle = h ∧
    e.origin = .restore c ∧ e.owner = x.owner ∧ e.blocks = openBlocks x
  assembling : ∀ c x, ctx c = some x → x.state = .assembling →
    x.handle = none ∧ ∀ i ∈ x.items, i.state = .pending

/-- The reservation table in form and, where p, the figures that follow it. -/
def Ledger (p : Prop) (s : State) : Prop :=
  AdmOk s.adm ∧ (p → Tallies (reservedOf s) s.adm.entries ∧ JobsOk s.adm.entries s.context)

theorem reservedCounted_iff (h : OwnersOrdered s) : ReservedCounted s ↔
    Tallies (reservedOf s) s.adm.entries ∧ JobsOk s.adm.entries s.context := by
  have sums : (∀ o ∈ s.owners, o.reserved = entryBlocks s o.id) ↔
      ∀ id, ∀ n ∈ reservedOf s id, n = blocksOf s.adm.entries id := by
    constructor
    · intro all id n hn
      obtain ⟨o, ho, rfl⟩ := Option.map_eq_some_iff.mp hn
      obtain rfl := findOwner_id s ho
      exact all o (findOwner_mem ho)
    · intro all o ho
      exact all o.id _ (Option.map_eq_some_iff.mpr ⟨o, findOwner_of_mem h ho, rfl⟩)
  have owned : ∀ id, (s.findOwner id).isSome = true ↔ reservedOf s id ≠ none := fun id => by
    rw [reservedOf, ne_eq, Option.map_eq_none_iff, Option.isSome_iff_ne_none]
  constructor
  · rintro ⟨all, each, jobs⟩
    refine ⟨⟨sums.mp all, fun e he => (owned _).mp (each e he).1⟩, ?_⟩
    exact {
      write := fun e he => (each e he).2.1
      restore := fun e he => (each e he).2.2
      tracked := fun c x h hx hh => (jobs c x hx).1 h hh
      assembling := fun c x hx => (jobs c x hx).2 }
  · rintro ⟨⟨all, own⟩, jobs⟩
    exact ⟨sums.mpr all, fun e he => ⟨(owned _).mpr (own e he), jobs.write e he, jobs.restore e he⟩,
      fun c x hx => ⟨fun h hh => jobs.tracked c x h hx hh, jobs.assembling c x hx⟩⟩

/-! ### Records -/

theorem reservedOf_put (o : Owner) (j : OwnerId) :
    reservedOf (s.setOwners (putOwner o s.owners)) j =
      if j = o.id then some o.reserved else reservedOf s j := by
  unfold reservedOf State.findOwner
  rw [State.setOwners_owners]
  split
  · rename_i e
    rw [e, find_putOwner_self]
    rfl
  · rename_i ne
    rw [find_putOwner_other _ _ ne]

theorem reservedOf_touch {g : Nat → Nat} (hid : ∀ o, (f o).id = o.id)
    (hg : ∀ o, (f o).reserved = g o.reserved) (id j : OwnerId) : reservedOf (s.touchOwner id f) j =
      if j = id then (reservedOf s j).map g else reservedOf s j := by
  unfold State.touchOwner
  split
  · rename_i none
    split
    · rename_i e
      rw [e, reservedOf, none]
      rfl
    · rfl
  · rename_i o found
    have eid : (s.reevaluate (f o)).id = id := by rw [reevaluate_id, hid, findOwner_id s found]
    rw [reservedOf_put, eid]
    split
    · rename_i e
      rw [e, reservedOf, found, reevaluate_reserved, hg]
      rfl
    · rfl

/-- A touch that leaves the reserved figure. -/
theorem reservedOf_touch_same (hid : ∀ o, (f o).id = o.id) (hr : ∀ o, (f o).reserved = o.reserved) :
    reservedOf (s.touchOwner id f) = reservedOf s := by
  funext j
  rw [reservedOf_touch (g := fun n => n) hid hr]
  split
  · exact Option.map_id'
  · rfl

theorem foldl_least_mem {α : Type} {weight : α → Nat} {a : α} (xs : List α) (b : Option α)
    (h : xs.foldl (fun best x => match best with
      | none => some x
      | some b => if weight x < weight b then some x else some b) b = some a) :
    b = some a ∨ a ∈ xs := by
  induction xs generalizing b with
  | nil => exact .inl h
  | cons x xs ih =>
    rcases ih _ h with found | found
    · cases b with
      | none => exact .inr (by simp_all)
      | some b =>
        dsimp only at found
        split at found
        · exact .inr (by simp_all)
        · exact .inl found
    · exact .inr (List.mem_cons_of_mem _ found)

/-- The eviction's victim is one of the records that may go (R3). -/
theorem evictionVictim_evictable {v : Owner} (h : s.evictionVictim = some v) :
    Evictable s v := by
  rw [evictionVictim_eq] at h
  rcases foldl_least_mem _ _ h with found | found
  · cases found
  · exact evictable_iff.mp (List.mem_filter.mp found).2

/-- A record joins the table, in a free place or in that of a record that may go (R3). -/
theorem addOwner_cases (h : s.addOwner o = some t) :
    (s.owners.length < Config.ownerSlots ∧ t = s.setOwners (putOwner o s.owners)) ∨
    ∃ v, ¬s.owners.length < Config.ownerSlots ∧ s.evictionVictim = some v ∧
      t = s.setOwners (putOwner o (s.owners.filter (·.id != v.id))) := by
  unfold State.addOwner at h
  split at h
  · rename_i room
    exact .inl ⟨room, (Option.some.inj h).symm⟩
  · rename_i full
    split at h
    · cases h
    · rename_i v victim
      exact .inr ⟨v, full, victim, (Option.some.inj h).symm⟩

/-- What the owner records hold of reservations when a record has joined: nothing in the new one,
and another is gone only if no entry is its owner's. -/
theorem reservedOf_add (hres : o.reserved = 0) (h : s.addOwner o = some t) (j : OwnerId) :
    (j = o.id ∧ reservedOf t j = some 0) ∨ (j ≠ o.id ∧ (reservedOf t j = reservedOf s j ∨
      (reservedOf t j = none ∧ ∀ e ∈ s.adm.entries, e.owner ≠ j))) := by
  by_cases new : j = o.id
  · refine .inl ⟨new, ?_⟩
    subst new
    have found : t.findOwner o.id = some o := by
      rcases addOwner_cases h with ⟨-, rfl⟩ | ⟨v, -, -, rfl⟩
      · exact find_putOwner_self o s.owners
      · exact find_putOwner_self o _
    rw [reservedOf, found, Option.map_some, hres]
  · refine .inr ⟨new, ?_⟩
    rcases addOwner_cases h with ⟨-, rfl⟩ | ⟨v, -, victim, rfl⟩
    · exact .inl (by rw [reservedOf_put, if_neg new])
    · have found : (s.setOwners (putOwner o (s.owners.filter (·.id != v.id)))).findOwner j =
          (s.owners.filter (·.id != v.id)).find? (·.id == j) := find_putOwner_other _ _ new
      by_cases gone : j = v.id
      · refine .inr ⟨?_, fun e he => ?_⟩
        · rw [reservedOf, found, gone, Option.map_eq_none_iff, List.find?_eq_none]
          intro x hx
          simpa using (List.mem_filter.mp hx).2
        · obtain ⟨-, -, -, noEntry⟩ := evictionVictim_evictable victim
          exact gone ▸ noEntry e he
      · refine .inl ?_
        rw [reservedOf, found, reservedOf, State.findOwner, List.find?_filter]
        congr 2
        funext x
        by_cases e : x.id = j
        · simp [e, gone]
        · simp [e]

/-! ### The figures under changes of entries and records -/

theorem blocksOf_nil (h : ∀ e ∈ es, e.owner ≠ id) : blocksOf es id = 0 := by
  have : es.filter (·.owner == id) = [] :=
    List.filter_eq_nil_iff.mpr fun e he => by simpa using h e he
  rw [blocksOf, this]
  rfl

theorem blocksOf_perm {es' : List Reservation} (h : es.Perm es') (id : OwnerId) :
    blocksOf es id = blocksOf es' id := ((h.filter _).map _).sum_nat

theorem blocksOf_cons (e : Reservation) (es : List Reservation) (id : OwnerId) :
    blocksOf (e :: es) id = (if id = e.owner then e.blocks else 0) + blocksOf es id := by
  unfold blocksOf
  by_cases h : id = e.owner
  · simp [h]
  · have : ¬e.owner = id := fun x => h x.symm
    simp [h, this]

/-- Elements with distinct keys are told apart by them. -/
theorem eq_of_distinct {α β : Type} {key : α → β} {xs : List α} {a b : α}
    (h : xs.Pairwise fun a b => key a ≠ key b) (ha : a ∈ xs) (hb : b ∈ xs) (eq : key a = key b) :
    a = b := List.inj_on_of_nodup_map (List.pairwise_map.mpr h) ha hb eq

/-- In a table ordered by slot an entry stands once (R26). -/
theorem perm_removed (h : Ascends (·.slot) es) (he : e ∈ es) :
    es.Perm (e :: es.filter (·.slot != e.slot)) := by
  have unique : ∀ y ∈ es, y.slot = e.slot → y = e := fun y hy =>
    eq_of_distinct (h.imp fun lt => lt.ne) hy he
  have nodup : es.Nodup := h.imp fun lt eq => by subst eq; exact absurd lt (Nat.lt_irrefl _)
  refine (List.perm_ext_iff_of_nodup nodup ?_).mpr fun y => ?_
  · exact List.nodup_cons.mpr ⟨by simp, nodup.filter _⟩
  · rw [List.mem_cons, List.mem_filter]
    constructor
    · intro hy
      by_cases eq : y.slot = e.slot
      · exact .inl (unique y hy eq)
      · exact .inr ⟨hy, by simpa using eq⟩
    · rintro (rfl | ⟨hy, -⟩)
      · exact he
      · exact hy

/-- Blocks of an owner leave the entries and the record alike. -/
theorem tallies_less {es' : List Reservation} (h : Tallies r es)
    (owners : ∀ e' ∈ es', ∃ e ∈ es, e.owner = e'.owner)
    (blocks : ∀ id, blocksOf es id = (if id = k then n else 0) + blocksOf es' id) :
    Tallies (fun j => if j = k then (r j).map (· - n) else r j) es' := by
  obtain ⟨sums, owned⟩ := h
  refine ⟨fun id m hm => ?_, fun e' he' => ?_⟩
  · have total := blocks id
    by_cases hk : id = k
    · simp only [hk, if_true, Option.mem_map] at hm
      obtain ⟨m', hm', rfl⟩ := hm
      have := sums k m' hm'
      simp only [hk, if_true] at total ⊢
      omega
    · simp only [hk, if_false] at hm total
      have := sums id m hm
      omega
  · obtain ⟨e, he, same⟩ := owners e' he'
    have := owned e he
    rw [same] at this
    dsimp only
    split
    · rwa [ne_eq, Option.map_eq_none_iff]
    · exact this

/-- An entry leaves the table and its blocks the record. -/
theorem tallies_removed (h : Tallies r es) (asc : Ascends (·.slot) es) (he : e ∈ es) :
    Tallies (fun j => if j = e.owner then (r j).map (· - e.blocks) else r j)
      (es.filter (·.slot != e.slot)) :=
  tallies_less h (fun x hx => ⟨x, List.mem_of_mem_filter hx, rfl⟩) fun id => by
    rw [blocksOf_perm (perm_removed asc he), blocksOf_cons]

/-- An entry joins the table and its blocks the record. -/
theorem tallies_more {es' : List Reservation} (h : Tallies r es) (hp : es'.Perm (e :: es))
    (record : r e.owner ≠ none) :
    Tallies (fun j => if j = e.owner then (r j).map (· + e.blocks) else r j) es' := by
  obtain ⟨sums, owned⟩ := h
  refine ⟨fun id m hm => ?_, fun x hx => ?_⟩
  · rw [blocksOf_perm hp, blocksOf_cons]
    by_cases hk : id = e.owner
    · simp only [hk, if_true, Option.mem_map] at hm ⊢
      obtain ⟨m', hm', rfl⟩ := hm
      have := sums _ m' hm'
      omega
    · simp only [hk, if_false] at hm ⊢
      have := sums id m hm
      omega
  · have some : r x.owner ≠ none := by
      rcases List.mem_cons.mp (hp.mem_iff.mp hx) with rfl | hx
      · exact record
      · exact owned x hx
    dsimp only
    split
    · rwa [ne_eq, Option.map_eq_none_iff]
    · exact some

/-- A record without entries joins the table, and one without entries may leave it. -/
theorem tallies_add (hres : o.reserved = 0) (new : s.findOwner o.id = none)
    (h : s.addOwner o = some t) (ht : Tallies (reservedOf s) s.adm.entries) :
    Tallies (reservedOf t) s.adm.entries := by
  obtain ⟨sums, owned⟩ := ht
  have noEntry : ∀ e ∈ s.adm.entries, e.owner ≠ o.id := by
    intro e he eq
    refine owned e he ?_
    rw [eq, reservedOf, new]
    rfl
  refine ⟨fun id m hm => ?_, fun e he => ?_⟩
  · rcases reservedOf_add hres h id with ⟨rfl, eq⟩ | ⟨-, eq | ⟨eq, -⟩⟩ <;> rw [eq] at hm
    · cases hm
      exact (blocksOf_nil noEntry).symm
    · exact sums id m hm
    · cases hm
  · rcases reservedOf_add hres h e.owner with ⟨eq, -⟩ | ⟨-, eq | ⟨-, none⟩⟩
    · exact absurd eq (noEntry e he)
    · rw [eq]
      exact owned e he
    · exact absurd rfl (none e he)

/-! ### The entries and the jobs under changes -/

theorem context_putContext (c : Fin 4) (y : Option Context) :
    (s.putContext c y).context = Function.update s.context c y := by
  funext d
  by_cases h : d = c
  · rw [h, context_putContext_self, Function.update_self]
  · rw [context_putContext_other s h, Function.update_of_ne h]

theorem handle_unique (h : AdmOk s.adm) (he : e ∈ s.adm.entries) {e' : Reservation}
    (he' : e' ∈ s.adm.entries) (eq : e.handle = e'.handle) : e = e' := by
  obtain ⟨-, -, handles, -⟩ := h
  exact eq_of_distinct handles he he' eq

theorem entryByHandle_some {h : Nat} (he : s.entryByHandle h = some e) :
    e ∈ s.adm.entries ∧ e.handle = h :=
  ⟨List.mem_of_find?_eq_some he, by simpa using List.find?_some he⟩

theorem entryByHandle_eq (h : AdmOk s.adm) (he : e ∈ s.adm.entries) :
    s.entryByHandle e.handle = some e := by
  match found : s.entryByHandle e.handle with
  | none =>
    have := List.find?_eq_none.mp found e he
    simp at this
  | some e' =>
    obtain ⟨mem, eq⟩ := entryByHandle_some found
    rw [handle_unique h mem he eq]

/-- A context changes that keeps its handle and, if it has one, its owner and its open blocks. -/
theorem jobsOk_put (h : JobsOk es ctx) (hx : ctx c = some x) (handle : y.handle = x.handle)
    (tracked : x.handle ≠ none → y.owner = x.owner ∧ openBlocks y = openBlocks x)
    (assembling : y.state = .assembling → x.state = .assembling ∧
      ∀ i ∈ y.items, i ∈ x.items ∨ i.state = .pending) :
    JobsOk es (Function.update ctx c (some y)) where
  write := h.write
  restore e he d hd := by
    obtain ⟨lease, z, hz, hh⟩ := h.restore e he d hd
    refine ⟨lease, ?_⟩
    by_cases hdc : d = c
    · subst hdc
      obtain rfl : x = z := Option.some.inj (hx.symm.trans hz)
      exact ⟨y, Function.update_self .., handle.trans hh⟩
    · exact ⟨z, by rwa [Function.update_of_ne hdc], hh⟩
  tracked d z hn hz hh := by
    by_cases hdc : d = c
    · subst hdc
      rw [Function.update_self] at hz
      obtain rfl := Option.some.inj hz
      rw [handle] at hh
      obtain ⟨owner, openEq⟩ := tracked (by rw [hh]; exact Option.some_ne_none _)
      rw [owner, openEq]
      exact h.tracked d x hn hx hh
    · rw [Function.update_of_ne hdc] at hz
      exact h.tracked d z hn hz hh
  assembling d z hz hs := by
    by_cases hdc : d = c
    · subst hdc
      rw [Function.update_self] at hz
      obtain rfl := Option.some.inj hz
      obtain ⟨was, items⟩ := assembling hs
      obtain ⟨none, pending⟩ := h.assembling d x hx was
      exact ⟨handle.trans none, fun i hi => (items i hi).elim (pending i) fun h => h⟩
    · rw [Function.update_of_ne hdc] at hz
      exact h.assembling d z hz hs

/-- A context without an entry is freed. -/
theorem jobsOk_free (h : JobsOk es ctx) (hx : ctx c = some x) (handle : x.handle = none) :
    JobsOk es (Function.update ctx c none) where
  write := h.write
  restore e he d hd := by
    obtain ⟨lease, z, hz, hh⟩ := h.restore e he d hd
    refine ⟨lease, z, ?_, hh⟩
    rw [Function.update_of_ne, hz]
    rintro rfl
    obtain rfl : x = z := Option.some.inj (hx.symm.trans hz)
    rw [handle] at hh
    cases hh
  tracked d z hn hz hh := by
    by_cases hdc : d = c
    · subst hdc
      rw [Function.update_self] at hz
      cases hz
    · rw [Function.update_of_ne hdc] at hz
      exact h.tracked d z hn hz hh
  assembling d z hz hs := by
    by_cases hdc : d = c
    · subst hdc
      rw [Function.update_self] at hz
      cases hz
    · rw [Function.update_of_ne hdc] at hz
      exact h.assembling d z hz hs

/-- A new context opens where there was none. -/
theorem jobsOk_open (h : JobsOk es ctx) (hc : ctx c = none) (handle : x.handle = none)
    (items : x.items = []) : JobsOk es (Function.update ctx c (some x)) where
  write := h.write
  restore e he d hd := by
    obtain ⟨lease, z, hz, hh⟩ := h.restore e he d hd
    refine ⟨lease, z, ?_, hh⟩
    rw [Function.update_of_ne, hz]
    rintro rfl
    rw [hc] at hz
    cases hz
  tracked d z hn hz hh := by
    by_cases hdc : d = c
    · subst hdc
      rw [Function.update_self] at hz
      obtain rfl := Option.some.inj hz
      rw [handle] at hh
      cases hh
    · rw [Function.update_of_ne hdc] at hz
      exact h.tracked d z hn hz hh
  assembling d z hz hs := by
    by_cases hdc : d = c
    · subst hdc
      rw [Function.update_self] at hz
      obtain rfl := Option.some.inj hz
      exact ⟨handle, by simp [items]⟩
    · rw [Function.update_of_ne hdc] at hz
      exact h.assembling d z hz hs

/-- A write's entry leaves. -/
theorem jobsOk_removeWrite (h : JobsOk es ctx) (asc : Ascends (·.slot) es) (he : e ∈ es)
    (origin : e.origin = .write) : JobsOk (es.filter (·.slot != e.slot)) ctx where
  write x hx := h.write x (List.mem_of_mem_filter hx)
  restore x hx := h.restore x (List.mem_of_mem_filter hx)
  tracked d z hn hz hh := by
    obtain ⟨y, hy, rest⟩ := h.tracked d z hn hz hh
    refine ⟨y, ?_, rest⟩
    rcases List.mem_cons.mp ((perm_removed asc he).mem_iff.mp hy) with rfl | kept
    · rw [origin] at rest
      cases rest.2.1
    · exact kept
  assembling := h.assembling

/-- A restore's entry leaves with its context. -/
theorem jobsOk_removeJob (h : JobsOk es ctx) (asc : Ascends (·.slot) es)
    (handles : es.Pairwise fun a b => a.handle ≠ b.handle) (he : e ∈ es) (hx : ctx c = some x)
    (hh : x.handle = some e.handle) :
    JobsOk (es.filter (·.slot != e.slot)) (Function.update ctx c none) := by
  have same : ∀ y ∈ es, y.handle = e.handle → y = e := fun y hy => eq_of_distinct handles hy he
  have ofE : e.origin = .restore c := by
    obtain ⟨y, hy, eq, origin, -⟩ := h.tracked c x _ hx hh
    rw [← same y hy eq]
    exact origin
  refine ⟨fun y hy => h.write y (List.mem_of_mem_filter hy), fun y hy d hd => ?_,
    fun d z hn hz hzh => ?_, fun d z hz hs => ?_⟩
  · obtain ⟨hy, ne⟩ := List.mem_filter.mp hy
    obtain ⟨lease, z, hz, hzh⟩ := h.restore y hy d hd
    refine ⟨lease, z, ?_, hzh⟩
    rw [Function.update_of_ne, hz]
    rintro rfl
    obtain rfl : x = z := Option.some.inj (hx.symm.trans hz)
    have := same y hy (Option.some.inj (hzh.symm.trans hh))
    simp [this] at ne
  · by_cases hdc : d = c
    · subst hdc
      rw [Function.update_self] at hz
      cases hz
    · rw [Function.update_of_ne hdc] at hz
      obtain ⟨y, hy, eq, origin, rest⟩ := h.tracked d z hn hz hzh
      refine ⟨y, ?_, eq, origin, rest⟩
      rcases List.mem_cons.mp ((perm_removed asc he).mem_iff.mp hy) with rfl | kept
      · rw [ofE] at origin
        exact absurd (Origin.restore.inj origin).symm hdc
      · exact kept
  · by_cases hdc : d = c
    · subst hdc
      rw [Function.update_self] at hz
      cases hz
    · rw [Function.update_of_ne hdc] at hz
      exact h.assembling d z hz hs

/-- A write's entry joins. -/
theorem jobsOk_addWrite {es' : List Reservation} (h : JobsOk es ctx) (hp : es'.Perm (e :: es))
    (origin : e.origin = .write) (lease : e.lease.isSome = true) : JobsOk es' ctx where
  write x hx := by
    rcases List.mem_cons.mp (hp.mem_iff.mp hx) with rfl | hx
    · exact fun _ => lease
    · exact h.write x hx
  restore x hx d hd := by
    rcases List.mem_cons.mp (hp.mem_iff.mp hx) with rfl | hx
    · rw [origin] at hd
      cases hd
    · exact h.restore x hx d hd
  tracked d z hn hz hh := by
    obtain ⟨y, hy, rest⟩ := h.tracked d z hn hz hh
    exact ⟨y, hp.mem_iff.mpr (List.mem_cons_of_mem _ hy), rest⟩
  assembling := h.assembling

/-- A restore's entry joins as its job starts. -/
theorem jobsOk_addJob {es' : List Reservation} (h : JobsOk es ctx) (hp : es'.Perm (e :: es))
    (hx : ctx c = some x) (noHandle : x.handle = none) (origin : e.origin = .restore c)
    (lease : e.lease = none) (handle : y.handle = some e.handle) (owner : e.owner = y.owner)
    (blocks : e.blocks = openBlocks y) (running : y.state ≠ .assembling) :
    JobsOk es' (Function.update ctx c (some y)) where
  write z hz := by
    rcases List.mem_cons.mp (hp.mem_iff.mp hz) with rfl | hz
    · intro w
      rw [origin] at w
      cases w
    · exact h.write z hz
  restore z hz d hd := by
    rcases List.mem_cons.mp (hp.mem_iff.mp hz) with rfl | hz
    · obtain rfl : c = d := Origin.restore.inj (origin.symm.trans hd)
      exact ⟨lease, y, Function.update_self .., handle⟩
    · obtain ⟨noLease, v, hv, hh⟩ := h.restore z hz d hd
      refine ⟨noLease, v, ?_, hh⟩
      rw [Function.update_of_ne, hv]
      rintro rfl
      obtain rfl : x = v := Option.some.inj (hx.symm.trans hv)
      rw [noHandle] at hh
      cases hh
  tracked d z hn hz hh := by
    by_cases hdc : d = c
    · subst hdc
      rw [Function.update_self] at hz
      obtain rfl := Option.some.inj hz
      exact ⟨e, hp.mem_iff.mpr (by simp), Option.some.inj
        (handle.symm.trans hh), origin, owner, blocks⟩
    · rw [Function.update_of_ne hdc] at hz
      obtain ⟨v, hv, rest⟩ := h.tracked d z hn hz hh
      exact ⟨v, hp.mem_iff.mpr (List.mem_cons_of_mem _ hv), rest⟩
  assembling d z hz hs := by
    by_cases hdc : d = c
    · subst hdc
      rw [Function.update_self] at hz
      obtain rfl := Option.some.inj hz
      exact absurd hs running
    · rw [Function.update_of_ne hdc] at hz
      exact h.assembling d z hz hs

end Sys2Proof.Proofs

/-! PROOFS. The operations of the model and the ledger (R3, R26, R43 to R45). -/

namespace Sys2Proof.Proofs

open Sys2Proof.Machine Sys2Proof.Safety

variable {p : Prop} {l : List Block} {s t u w : State} {es : List Reservation} {e : Reservation}
  {c : Fin 4} {x y : Context} {id : OwnerId} {o o₁ : Owner} {f : Owner → Owner} {n v : Nat}
  {cls : Fin 8} {origin : Origin} {item : Item}

theorem ledger_congr (hr : reservedOf t = reservedOf s) (ha : t.adm = s.adm)
    (hc : t.context = s.context) (h : Ledger p s) : Ledger p t := by
  unfold Ledger at *
  rwa [hr, ha, hc]

theorem reservedOf_of_owners (h : t.owners = s.owners) : reservedOf t = reservedOf s := by
  funext j
  simp only [reservedOf, State.findOwner, h]

theorem context_of_changes (hp : Block.rsc ∉ l)
  (h : ChangesOnly l s t) : t.context = s.context := by
  have rsc : t.rsc = s.rsc := h.2 .rsc hp
  funext c
  simp only [State.context, rsc]

/-- The blocks that the ledger compares. -/
abbrev LeavesLedger (l : List Block) : Prop := .owners ∉ l ∧ .adm ∉ l ∧ .rsc ∉ l

theorem ledger_of_changes (hp : LeavesLedger l) (h : ChangesOnly l s t) (hs : Ledger p s) :
    Ledger p t :=
  ledger_congr (reservedOf_of_owners (h.2 .owners hp.1)) (h.2 .adm hp.2.1)
    (context_of_changes hp.2.2 h) hs

theorem ledger_answer {kind tag : Nat} {st : Status} {b : Body} (h : Ledger p s) :
    Ledger p (s.answer kind tag st b) := ledger_of_changes (by decide) (answer_changes ..) h

/-- Operations on owner records that leave the reserved figures. -/
theorem ledger_of_owners (hp : .adm ∉ l ∧ .rsc ∉ l) (h : ChangesOnly l s t)
    (hr : reservedOf t = reservedOf s) (hs : Ledger p s) : Ledger p t :=
  ledger_congr hr (h.2 .adm hp.1) (context_of_changes hp.2 h) hs

theorem ledger_touch (hid : ∀ o, (f o).id = o.id) (hr : ∀ o, (f o).reserved = o.reserved)
    (h : Ledger p s) : Ledger p (s.touchOwner id f) :=
  ledger_of_owners (by decide) (touchOwner_changes ..) (reservedOf_touch_same hid hr) h

/-- A record is put in place of one with the same reserved figure. -/
theorem ledger_replace (found : s.findOwner o.id = some o₁) (hr : o.reserved = o₁.reserved)
    (h : Ledger p s) : Ledger p (s.setOwners (putOwner o s.owners)) := by
  refine ledger_of_owners (by decide) (setOwners_changes ..) ?_ h
  funext j
  rw [reservedOf_put]
  split
  · rename_i e
    rw [e, reservedOf, found, hr]
    rfl
  · rfl

theorem ledger_map {g : Owner → Owner} (hid : ∀ o, (g o).id = o.id)
    (hr : ∀ o, (g o).reserved = o.reserved) (h : Ledger p s) :
    Ledger p (s.setOwners (s.owners.map g)) := by
  refine ledger_of_owners (by decide) (setOwners_changes ..) ?_ h
  funext j
  unfold reservedOf State.findOwner
  rw [State.setOwners_owners, List.find?_map, Option.map_map]
  simp only [Function.comp_def, hid, hr]

/-! ### New records and entries -/

theorem ledger_add (hres : o.reserved = 0) (new : s.findOwner o.id = none)
    (ht : s.addOwner o = some t) (h : Ledger p s) : Ledger p t := by
  have only := addOwner_changes s o ht
  have adm : t.adm = s.adm := only.2 .adm (by decide)
  unfold Ledger at *
  rw [adm, context_of_changes (by decide) only]
  exact ⟨h.1, fun hp => ⟨tallies_add hres new ht (h.2 hp).1, (h.2 hp).2⟩⟩

theorem ledger_ensure (ht : s.ensureOwner id cls = some t) (h : Ledger p s) : Ledger p t := by
  unfold State.ensureOwner at ht
  split at ht
  · cases ht
    exact h
  · rename_i new
    exact ledger_add rfl (Option.not_isSome_iff_eq_none.mp new) ht h

theorem findOwner_ensure (ht : s.ensureOwner id cls = some t) : reservedOf t id ≠ none := by
  unfold State.ensureOwner at ht
  rw [reservedOf, ne_eq, Option.map_eq_none_iff]
  split at ht
  · rename_i found
    cases ht
    exact Option.isSome_iff_ne_none.mp found
  · have found : t.findOwner id = some (s.freshOwner id cls) := by
      rcases addOwner_cases ht with ⟨-, rfl⟩ | ⟨v, -, -, rfl⟩
      · exact find_putOwner_self (s.freshOwner id cls) s.owners
      · exact find_putOwner_self (s.freshOwner id cls) _
    rw [found]
    exact Option.some_ne_none _

/-- What a grant leaves: the table with the entry, its blocks in the record, the jobs (R31). -/
theorem grant_ledger (h : s.grant id cls n v origin = some (e, t)) (hs : Ledger p s) :
    t.adm.entries.Perm (e :: s.adm.entries) ∧ t.context = s.context ∧ AdmOk t.adm ∧
      (p → Tallies (reservedOf t) t.adm.entries) := by
  obtain ⟨room, rfl, w, made, rfl⟩ := grant_some h
  have only := ensureOwner_changes s id cls made
  have touched := touchOwner_changes
    (w.setAdm { entries := putEntry (grantedEntry s id cls n v origin) s.adm.entries,
                handleCounter := (grantedEntry s id cls n v origin).handle }) id
    fun o => { o with reserved := o.reserved + n, lastCharge := s.now }
  have adm := touched.2 .adm (by decide)
  have perm := putEntry_perm (grantedEntry s id cls n v origin) s.adm.entries
  change _ = Admission.mk _ _ at adm
  rw [adm]
  refine ⟨perm, ?_, admOk_put hs.1 rfl rfl room, fun hp => ?_⟩
  · rw [context_of_changes (by decide) touched, ← context_of_changes (by decide) only]
    rfl
  · have before : Tallies (reservedOf w) s.adm.entries := by
      have := ((ledger_ensure made hs).2 hp).1
      rwa [show w.adm = s.adm from only.2 .adm (by decide)] at this
    have after := tallies_more (e := grantedEntry s id cls n v origin) before perm
      (findOwner_ensure made)
    convert after using 1
    funext j
    refine reservedOf_touch (g := (· + n)) (fun _ => ?_) (fun _ => ?_) id j <;> rfl

/-- A write is admitted or refused (R29 to R31). -/
theorem ledger_admit (h : Ledger p s) : Ledger p (s.admitBlocks id cls n v .write).2 := by
  have touched : Ledger p (admitting s id) := ledger_touch (fun _ => rfl) (fun _ => rfl) h
  rcases admitBlocks_cases s id cls n v .write with ⟨eq, -⟩ | ⟨e, granted, -⟩
  · rwa [eq]
  · obtain ⟨perm, context, adm, tallies⟩ := grant_ledger granted touched
    refine ⟨adm, fun hp => ⟨tallies hp, ?_⟩⟩
    obtain ⟨-, rfl, -⟩ := grant_some granted
    rw [context]
    exact jobsOk_addWrite (touched.2 hp).2 perm rfl rfl

/-! ### Entries that change or leave -/

/-- The write's entry found leaves with its blocks (R37, R41). -/
theorem ledger_removeWrite (he : e ∈ s.adm.entries) (write : p → e.origin = .write)
    (hid : ∀ o, (f o).id = o.id) (hr : ∀ o, (f o).reserved = o.reserved) (h : Ledger p s) :
    Ledger p (s.removeEntry e f) := by
  have only := removeEntry_changes s e f
  have adm : (s.removeEntry e f).adm =
      { s.adm with entries := s.adm.entries.filter (·.slot != e.slot) } :=
    (touchOwner_changes _ _ _).2 .adm (by decide)
  have slots : Ascends (·.slot) s.adm.entries := h.1.2.1
  unfold Ledger
  rw [adm, context_of_changes (by decide) only]
  refine ⟨admOk_filter _ h.1, fun hp => ⟨?_, jobsOk_removeWrite (h.2 hp).2 slots he (write hp)⟩⟩
  convert tallies_removed (h.2 hp).1 slots he using 1
  funext j
  exact reservedOf_touch (g := (· - e.blocks))
    (fun o => hid { o with reserved := o.reserved - e.blocks })
    (fun o => hr { o with reserved := o.reserved - e.blocks }) e.owner j

/-- Entries change that keep slot, handle, owner and blocks, and keep or gain the lease of a write
(R33). -/
theorem ledger_renew {g : Reservation → Reservation} (hslot : ∀ e, (g e).slot = e.slot)
    (hhandle : ∀ e, (g e).handle = e.handle) (howner : ∀ e, (g e).owner = e.owner)
    (hblocks : ∀ e, (g e).blocks = e.blocks) (horigin : ∀ e, (g e).origin = e.origin)
    (hlease : ∀ e ∈ s.adm.entries, (g e).lease = e.lease ∨
      (p → e.origin = .write ∧ (g e).lease.isSome = true)) (h : Ledger p s) :
    Ledger p (s.setAdm { s.adm with entries := s.adm.entries.map g }) := by
  obtain ⟨adm, figures⟩ := h
  refine ⟨admOk_map hslot hhandle adm, fun hp => ?_⟩
  obtain ⟨⟨sums, owned⟩, jobs⟩ := figures hp
  have same : ∀ id, blocksOf (s.adm.entries.map g) id = blocksOf s.adm.entries id := fun id => by
    simp only [blocksOf, List.filter_map, List.map_map, Function.comp_def, howner, hblocks]
  refine ⟨⟨fun id m hm => (sums id m hm).trans (same id).symm, fun x hx => ?_⟩, ?_⟩
  · obtain ⟨y, hy, rfl⟩ := List.mem_map.mp hx
    rw [howner]
    exact owned y hy
  · refine ⟨fun x hx => ?_, fun x hx d hd => ?_, fun d z hn hz hh => ?_, jobs.assembling⟩ <;>
      dsimp only [State.setAdm_adm] at *
    · obtain ⟨y, hy, rfl⟩ := List.mem_map.mp hx
      rw [horigin]
      intro write
      rcases hlease y hy with kept | gained
      · rw [kept]
        exact jobs.write y hy write
      · exact (gained hp).2
    · obtain ⟨y, hy, rfl⟩ := List.mem_map.mp hx
      rw [horigin] at hd
      rw [hhandle]
      obtain ⟨noLease, held⟩ := jobs.restore y hy d hd
      refine ⟨?_, held⟩
      rcases hlease y hy with kept | gained
      · rw [kept]
        exact noLease
      · rw [(gained hp).1] at hd
        cases hd
    · obtain ⟨y, hy, rest⟩ := jobs.tracked d z hn hz hh
      refine ⟨g y, List.mem_map_of_mem hy, ?_⟩
      rw [hhandle, horigin, howner, hblocks]
      exact rest

/-! ### Contexts -/

theorem ledger_putContext {y : Option Context} (h : Ledger p s)
    (jobs : p → JobsOk s.adm.entries s.context →
      JobsOk s.adm.entries (Function.update s.context c y)) : Ledger p (s.putContext c y) := by
  refine ⟨h.1, fun hp => ⟨(h.2 hp).1, ?_⟩⟩
  rw [context_putContext]
  exact jobs hp (h.2 hp).2

/-- A mark on a context. -/
theorem ledger_mark {g : Context → Context} (handle : ∀ x, (g x).handle = x.handle)
    (owner : ∀ x, (g x).owner = x.owner) (items : ∀ x, (g x).items = x.items)
    (state : ∀ x, (g x).state = .assembling → x.state = .assembling) (h : Ledger p s) :
    Ledger p (s.modifyContext c g) := by
  unfold State.modifyContext
  split
  · exact h
  · rename_i x found
    refine ledger_putContext h fun _ jobs => jobsOk_put jobs found (handle x)
      (fun _ => ⟨owner x, by rw [openBlocks, items, ← openBlocks]⟩)
      fun hs => ⟨state x hs, fun i hi => .inl ?_⟩
    rwa [items] at hi

theorem ledger_testJobEnd (c : Fin 4) (h : Ledger p s) : Ledger p (s.testJobEnd c) := by
  refine ledger_mark (fun x => ?_) (fun x => ?_) (fun x => ?_) (fun x => ?_) h
  · split <;> rfl
  · split <;> rfl
  · split <;> rfl
  · split <;> exact fun h => h

/-- A context without an entry is freed. -/
theorem ledger_free (found : s.context c = some x) (handle : p → x.handle = none) (h : Ledger p s) :
    Ledger p (s.freeContext c x) :=
  ledger_of_changes (by decide) (giveRef_changes ..)
    (ledger_putContext h fun hp jobs => jobsOk_free jobs found (handle hp))

/-- An assembling context has no entry. -/
theorem ledger_free_assembling (found : s.context c = some x) (state : x.state = .assembling)
    (h : Ledger p s) : Ledger p (s.freeContext c x) :=
  ledger_free found (fun hp => ((h.2 hp).2.assembling c x found state).1) h

/-- The blocks of the items that are not copied, after the state of one has changed. -/
theorem openItems_set {items : List Item} {i : Nat} (h : items[i]? = some item)
    (was : item.state ≠ .copied) (st : ItemState) :
    (((items.set i { item with state := st }).filter (·.state != .copied)).map (·.length)).sum +
      (if st = .copied then item.length else 0) =
    ((items.filter (·.state != .copied)).map (·.length)).sum := by
  induction items generalizing i with
  | nil => cases h
  | cons a as ih =>
    cases i with
    | zero =>
      obtain rfl : a = item := Option.some.inj h
      by_cases copied : st = .copied
      · simp [copied, was, Nat.add_comm]
      · simp [copied, was]
    | succ i =>
      have rest := ih (i := i) h
      by_cases first : a.state = .copied
      · simpa [first] using rest
      · simp only [List.set_cons_succ, List.filter_cons, bne_iff_ne, ne_eq, first,
          not_false_eq_true, if_true, List.map_cons, List.sum_cons, Nat.add_assoc, rest]

/-- A COPY_NOTICE marks its item as outstanding (R116). -/
theorem ledger_placeCopy (found : s.context c = some x) (ready : x.state = .running)
    (h : Ledger p s) : Ledger p (s.placeCopy c x) := by
  unfold State.placeCopy
  dsimp only
  split
  · exact h
  · rename_i item at_
    have pending : item.state ≠ .copied := by
      have := List.findIdx_getElem (xs := x.items) (p := (·.state == .pending))
        (w := (List.getElem?_eq_some_iff.mp at_).1)
      rw [(List.getElem?_eq_some_iff.mp at_).2] at this
      intro copied
      simp [copied] at this
    refine ledger_of_changes (by decide) (notice_changes ..) (ledger_congr (s := s.putContext c
      (some _)) (t := (s.putContext c (some _)).setRsc _) rfl rfl rfl ?_)
    refine ledger_putContext h fun _ jobs => jobsOk_put jobs found rfl (fun _ => ⟨rfl, ?_⟩)
      fun hs => absurd hs ?_
    · simpa [openBlocks] using openItems_set at_ pending .outstanding
    · dsimp only
      rw [ready]
      decide

theorem nextCopy_some (h : s.nextCopy = some (c, x)) :
    s.context c = some x ∧ x.copyReady s.cfg.copyDepth = true := by
  unfold State.nextCopy at h
  obtain ⟨d, -, hd⟩ := List.exists_of_findSome?_eq_some h
  split at hd
  · rename_i y found
    split at hd
    · rename_i ready
      cases hd
      exact ⟨found, ready⟩
    · cases hd
  · cases hd

theorem ledger_placeCopies (h : Ledger p s) : Ledger p s.placeCopies := by
  unfold State.placeCopies
  generalize 16 = rounds
  induction rounds generalizing s with
  | zero => exact h
  | succ rounds ih =>
    unfold copyRounds
    split
    · exact h
    · rename_i c x next
      obtain ⟨found, ready⟩ := nextCopy_some next
      have running : x.state = .running := by
        simp only [Context.copyReady, Bool.and_eq_true, beq_iff_eq] at ready
        exact ready.1.1
      exact ite_keeps (fun _ => ih (ledger_placeCopy found running h)) fun _ => h

/-! ### The start and the end of a restore job -/

/-- A restore's entry leaves as its context is freed (R120). -/
theorem ledger_removeJob {h : Nat} (found : s.context c = some x) (handle : x.handle = some h)
    (entry : s.entryByHandle h = some e) (hs : Ledger p s) :
    Ledger p ((s.removeEntry e fun o => o).freeContext c x) := by
  obtain ⟨he, rfl⟩ := entryByHandle_some entry
  refine ledger_of_changes (by decide) (giveRef_changes ..) ?_
  have only := removeEntry_changes s e fun o => o
  have adm : (s.removeEntry e fun o => o).adm =
      { s.adm with entries := s.adm.entries.filter (·.slot != e.slot) } :=
    (touchOwner_changes _ _ _).2 .adm (by decide)
  obtain ⟨ok, figures⟩ := hs
  have ⟨_, slots, handles, _⟩ := ok
  unfold Ledger
  rw [context_putContext, context_of_changes (by decide) only,
    show ((s.removeEntry e fun o => o).putContext c none).adm = _ from adm]
  refine ⟨admOk_filter _ ok, fun hp => ⟨?_,
    jobsOk_removeJob (figures hp).2 slots handles he found handle⟩⟩
  convert tallies_removed (figures hp).1 slots he using 1
  funext j
  refine reservedOf_touch (g := (· - e.blocks)) (fun _ => ?_) (fun _ => ?_) e.owner j <;> rfl

/-- RESTORE_END: the entry returned, the context freed (R120). -/
theorem ledger_restoreEndStep (c : Fin 4) (h : Ledger p s) : Ledger p (s.restoreEndStep c) := by
  unfold State.restoreEndStep
  split
  · exact h
  rename_i x found
  refine ite_keeps (fun _ => ?_) fun _ => h
  refine ledger_of_changes (l := night) (by decide) (andThen (by decide) (andThen (by decide)
    (andThen (by decide) (within (by decide) (notice_changes ..)) (restoreEnds_changes ..))
    (evaluateIfOver_changes ..)) (flushEvent_changes ..)) ?_
  split
  · rename_i e entry
    obtain ⟨h', handle, entry⟩ := Option.bind_eq_some_iff.mp entry
    exact ledger_removeJob found handle entry h
  · rename_i none
    refine ledger_free found (fun hp => ?_) h
    match handle : x.handle with
    | .none => rfl
    | some h' =>
      obtain ⟨e, he, rfl, -⟩ := (h.2 hp).2.tracked c x h' found handle
      rw [handle, Option.bind_some, entryByHandle_eq h.1 he] at none
      cases none

/-- An admission of a restore's target blocks that is granted starts the job (R113, R114). -/
theorem ledger_startTracked (found : s.context c = some x) (state : x.state = .assembling)
    (status : (s.admitBlocks x.owner cls (x.items.map (·.length)).sum v
      (.restore c)).1.status = .ok ∨
      (s.admitBlocks x.owner cls (x.items.map (·.length)).sum v (.restore c)).1.status = .soft)
    (h : Ledger p s) :
    Ledger p ((s.admitBlocks x.owner cls (x.items.map (·.length)).sum v (.restore c)).2.startJob c x
      (some (s.admitBlocks x.owner cls (x.items.map (·.length)).sum v (.restore c)).1.handle)) := by
  have touched : Ledger p (admitting s x.owner) := ledger_touch (fun _ => rfl) (fun _ => rfl) h
  have kept : (admitting s x.owner).context = s.context :=
    context_of_changes (by decide) (touchOwner_changes ..)
  rcases admitBlocks_cases s x.owner cls (x.items.map (·.length)).sum v (.restore c) with
    ⟨-, notOk, notSoft⟩ | ⟨e, granted, handle, -⟩
  · exact absurd status (not_or.mpr ⟨notOk, notSoft⟩)
  · rw [handle]
    refine ledger_of_changes (by decide) (restoreStarts_changes _) ?_
    obtain ⟨perm, context, adm, tallies⟩ := grant_ledger granted touched
    refine ⟨adm, fun hp => ⟨tallies hp, ?_⟩⟩
    obtain ⟨-, rfl, -⟩ := grant_some granted
    rw [context_putContext, context]
    have before := (touched.2 hp).2
    have here : (admitting s x.owner).context c = some x := by rw [kept, found]
    obtain ⟨none, pending⟩ := before.assembling c x here state
    refine jobsOk_addJob before perm here none rfl rfl rfl rfl ?_ (by simp [Context.start])
    have all : x.items.filter (·.state != .copied) = x.items :=
      List.filter_eq_self.mpr fun i hi => by simp [pending i hi]
    simp only [grantedEntry, openBlocks, Context.start, all]

/-- A refused admission frees the context (R113). -/
theorem ledger_refused (found : s.context c = some x) (state : x.state = .assembling)
    (status : ¬((s.admitBlocks x.owner cls n v (.restore c)).1.status = .ok ∨
      (s.admitBlocks x.owner cls n v (.restore c)).1.status = .soft)) (h : Ledger p s) :
    Ledger p ((s.admitBlocks x.owner cls n v (.restore c)).2.freeContext c x) := by
  rcases admitBlocks_cases s x.owner cls n v (.restore c) with ⟨eq, -⟩ | ⟨e, -, -, -, admitted⟩
  · have kept : (admitting s x.owner).context = s.context :=
      context_of_changes (by decide) (touchOwner_changes ..)
    rw [eq]
    exact ledger_free_assembling (by rw [kept, found]) state
      (ledger_touch (fun _ => rfl) (fun _ => rfl) h)
  · exact absurd admitted status

/-- An untracked job starts without an entry. -/
theorem ledger_startUntracked (found : s.context c = some x) (state : x.state = .assembling)
    (h : Ledger p s) : Ledger p (s.startJob c x none) := by
  refine ledger_of_changes (by decide) (restoreStarts_changes _)
    (ledger_putContext h fun hp jobs => ?_)
  have handle := ((h.2 hp).2.assembling c x found state).1
  exact jobsOk_put jobs found handle.symm (fun some => absurd handle some) (by simp [Context.start])

/-! ### The charge of a copied item -/

/-- An entry as the charge of an item leaves it (R119). -/
def chargedEntry (e : Reservation) (n : Nat) (y : Reservation) : Reservation :=
  if y.slot = e.slot then { y with blocks := y.blocks - n } else y

theorem chargedEntry_fields (e : Reservation) (n : Nat) (y : Reservation) :
    (chargedEntry e n y).slot = y.slot ∧ (chargedEntry e n y).handle = y.handle ∧
      (chargedEntry e n y).owner = y.owner ∧ (chargedEntry e n y).origin = y.origin ∧
      (chargedEntry e n y).lease = y.lease := by
  unfold chargedEntry
  split <;> exact ⟨rfl, rfl, rfl, rfl, rfl⟩

theorem chargedEntry_other {y : Reservation} (h : y.slot ≠ e.slot) : chargedEntry e n y = y :=
  if_neg h

theorem chargedEntry_self : (chargedEntry e n e).blocks = e.blocks - n := by
  simp [chargedEntry]

theorem blocksOf_charged (asc : Ascends (·.slot) es) (he : e ∈ es) (le : n ≤ e.blocks)
    (id : OwnerId) : blocksOf es id =
      (if id = e.owner then n else 0) + blocksOf (es.map (chargedEntry e n)) id := by
  have perm := perm_removed asc he
  have rest : (es.filter (·.slot != e.slot)).map (chargedEntry e n) =
      es.filter (·.slot != e.slot) :=
    (List.map_congr_left fun y hy => chargedEntry_other
      (by simpa using (List.mem_filter.mp hy).2)).trans (List.map_id _)
  rw [blocksOf_perm perm, blocksOf_perm (perm.map (chargedEntry e n)), List.map_cons, rest,
    blocksOf_cons, blocksOf_cons, chargedEntry_self, (chargedEntry_fields e n e).2.2.1]
  split <;> omega

/-- The entry and the open blocks of a job shrink alike. -/
theorem jobsOk_charge {ctx : Fin 4 → Option Context} (h : JobsOk es ctx) (asc : Ascends (·.slot) es)
    (he : e ∈ es) (found : ctx c = some x) (handle : x.handle = some e.handle)
    (unique : ∀ y ∈ es, y.handle = e.handle → y = e) (hy : y.handle = x.handle)
    (owner : y.owner = x.owner) (blocks : openBlocks y + n = openBlocks x)
    (running : y.state ≠ .assembling) :
    JobsOk (es.map (chargedEntry e n)) (Function.update ctx c (some y)) where
  write z hz := by
    obtain ⟨v, hv, rfl⟩ := List.mem_map.mp hz
    obtain ⟨-, -, -, origin, lease⟩ := chargedEntry_fields e n v
    rw [origin, lease]
    exact h.write v hv
  restore z hz d hd := by
    obtain ⟨v, hv, rfl⟩ := List.mem_map.mp hz
    obtain ⟨-, ofHandle, -, origin, lease⟩ := chargedEntry_fields e n v
    rw [origin] at hd
    rw [lease, ofHandle]
    obtain ⟨noLease, k, hk, hh⟩ := h.restore v hv d hd
    refine ⟨noLease, ?_⟩
    by_cases hdc : d = c
    · subst hdc
      obtain rfl : x = k := Option.some.inj (found.symm.trans hk)
      exact ⟨y, Function.update_self .., hy.trans hh⟩
    · exact ⟨k, by rwa [Function.update_of_ne hdc], hh⟩
  tracked d z hn hz hh := by
    by_cases hdc : d = c
    · subst hdc
      rw [Function.update_self] at hz
      obtain rfl := Option.some.inj hz
      rw [hy, handle] at hh
      obtain rfl := Option.some.inj hh
      obtain ⟨v, hv, eq, origin, ofOwner, total⟩ := h.tracked d x _ found handle
      obtain rfl := unique v hv eq
      obtain ⟨-, ofHandle, ofOwner', origin', -⟩ := chargedEntry_fields v n v
      refine ⟨_, List.mem_map_of_mem hv, ofHandle, origin'.trans origin,
        (ofOwner'.trans ofOwner).trans owner.symm, ?_⟩
      rw [chargedEntry_self]
      omega
    · rw [Function.update_of_ne hdc] at hz
      obtain ⟨v, hv, rest⟩ := h.tracked d z hn hz hh
      have other : v.slot ≠ e.slot := by
        intro eq
        obtain ⟨k, hk, same, origin, -⟩ := h.tracked c x _ found handle
        obtain rfl := unique k hk same
        have : v = k := eq_of_distinct (key := Reservation.slot) (asc.imp fun lt => lt.ne) hv hk eq
        rw [this, origin] at rest
        exact hdc (Origin.restore.inj rest.2.1).symm
      refine ⟨v, List.mem_map.mpr ⟨v, hv, chargedEntry_other other⟩, rest⟩
  assembling d z hz hs := by
    by_cases hdc : d = c
    · subst hdc
      rw [Function.update_self] at hz
      obtain rfl := Option.some.inj hz
      exact absurd hs running
    · rw [Function.update_of_ne hdc] at hz
      exact h.assembling d z hz hs

/-- What stands in the context when its item is answered (R118, R119). -/
theorem answered_facts {i : Nat} {ok : Bool} (hi : x.items[i]? = some item)
    (outstanding : item.state = .outstanding) (running : x.state ≠ .assembling) :
    (x.answered i item ok).handle = x.handle ∧ (x.answered i item ok).owner = x.owner ∧
      openBlocks (x.answered i item ok) + (if ok = true then item.length else 0) = openBlocks x ∧
      (x.answered i item ok).state ≠ .assembling := by
  have was : item.state ≠ .copied := by
    rw [outstanding]
    decide
  cases ok with
  | true => exact ⟨rfl, rfl, openItems_set hi was .copied, running⟩
  | false => exact ⟨rfl, rfl, openItems_set hi was .failed, by simp [Context.answered]⟩

/-- A failed item is answered. -/
theorem ledger_failed {i : Nat} (found : s.context c = some x) (hi : x.items[i]? = some item)
    (outstanding : item.state = .outstanding) (running : x.state ≠ .assembling) (h : Ledger p s) :
    Ledger p (s.putContext c (some (x.answered i item false))) := by
  obtain ⟨handle, owner, total, state⟩ := answered_facts (ok := false) hi outstanding running
  exact ledger_putContext h fun _ jobs => jobsOk_put jobs found handle
    (fun _ => ⟨owner, by simpa using total⟩) fun hs => absurd hs state

/-- A copied item is answered and its blocks charged. -/
theorem ledger_copied {i : Nat} (found : s.context c = some x) (hi : x.items[i]? = some item)
    (outstanding : item.state = .outstanding) (running : x.state ≠ .assembling) (h : Ledger p s) :
    Ledger p ((s.putContext c (some (x.answered i item true))).chargeRestore x item.length) := by
  obtain ⟨handle, owner, total, state⟩ := answered_facts (ok := true) hi outstanding running
  rw [if_pos rfl] at total
  unfold State.chargeRestore
  split
  · rename_i none
    refine ledger_putContext h fun hp jobs => jobsOk_put jobs found handle (fun some => ?_)
      fun hs => absurd hs state
    obtain ⟨hn, handle⟩ := Option.ne_none_iff_exists'.mp some
    obtain ⟨e, he, rfl, -⟩ := jobs.tracked c x hn found handle
    have : s.entryByHandle e.handle = .none := by rwa [handle, Option.bind_some] at none
    rw [entryByHandle_eq h.1 he] at this
    cases this
  · rename_i e entry
    obtain ⟨hn, ofX, entry⟩ := Option.bind_eq_some_iff.mp entry
    obtain ⟨he, rfl⟩ := entryByHandle_some (s := s) entry
    have ⟨_, slots, handles, _⟩ := h.1
    have unique : ∀ y ∈ s.adm.entries, y.handle = e.handle → y = e :=
      fun y hy => eq_of_distinct handles hy he
    refine ledger_of_changes (by decide) (usedChanged_changes ..) ?_
    have touched := touchOwner_changes (((s.putContext c (some (x.answered i item true))).setAdm
      { s.adm with entries := s.adm.entries.map (chargedEntry e item.length) })) e.owner
      fun o => Owner.charge { o with reserved := o.reserved - item.length } item.length s.now
    have adm := touched.2 .adm (by decide)
    have context := context_of_changes (by decide) touched
    change _ = Admission.mk _ _ at adm
    change _ = (s.putContext c (some (x.answered i item true))).context at context
    rw [context_putContext] at context
    have slotHandle := fun y => chargedEntry_fields e item.length y
    suffices Ledger p (((s.putContext c (some (x.answered i item true))).setAdm
      { s.adm with entries := s.adm.entries.map (chargedEntry e item.length) }).touchOwner e.owner
      fun o => Owner.charge { o with reserved := o.reserved - item.length } item.length s.now)
      from this
    unfold Ledger
    rw [adm, context]
    refine ⟨admOk_map (fun y => (slotHandle y).1) (fun y => (slotHandle y).2.1) h.1, fun hp => ?_⟩
    obtain ⟨tallies, jobs⟩ := h.2 hp
    refine ⟨?_, jobsOk_charge jobs slots he found ofX unique handle owner total state⟩
    have le : item.length ≤ e.blocks := by
      obtain ⟨v, hv, same, -, -, blocks⟩ := jobs.tracked c x _ found ofX
      rw [← unique v hv same, blocks]
      omega
    have less := tallies_less (es' := s.adm.entries.map (chargedEntry e item.length))
      (k := e.owner) (n := item.length) tallies (fun y hy => ?_) (blocksOf_charged slots he le)
    · convert less using 1
      funext j
      refine reservedOf_touch (g := (· - item.length)) (fun _ => ?_) (fun _ => ?_) e.owner j <;> rfl
    · obtain ⟨v, hv, rfl⟩ := List.mem_map.mp hy
      exact ⟨v, hv, (slotHandle v).2.2.1.symm⟩

end Sys2Proof.Proofs

/-! PROOFS. Every command keeps the ledger: the reservation table in form (R26, R27) and, where they
held, the reserved figures and the restore jobs that follow it (R3, R43 to R45). -/

namespace Sys2Proof.Proofs

open Sys2Proof.Machine Sys2Proof.Safety

variable {p : Prop} {l : List Block} {s t u w : State} {c : Fin 4} {x : Context} {id : OwnerId}

theorem findJob_some {context job : Nat} (h : s.findJob context job = some (c, x)) :
    s.context c = some x := by
  unfold State.findJob at h
  split at h
  · split at h
    · rename_i found
      split at h
      · cases h
        exact found
      · cases h
    · cases h
  · cases h

/-! ### The requests -/

theorem reserveRequest_ledger (tag : Nat) (q : ReserveReq) (s : State) (h : Ledger p s) :
    Ledger p (reserveRequest tag q s) := by
  unfold reserveRequest
  refine ite_keeps (fun _ => ledger_answer h) fun _ => ite_keeps (fun _ => ledger_answer h)
    fun _ => ?_
  split
  · exact ledger_answer h
  · exact ledger_answer (ledger_admit h)

theorem renewRequest_ledger (tag handle : Nat) (s : State) (h : Ledger p s) :
    Ledger p (renewRequest tag handle s) := by
  unfold renewRequest
  refine ite_keeps (fun _ => ledger_answer h) fun _ => ?_
  split
  · exact ledger_answer h
  rename_i e entry
  refine ite_keeps (fun write => ledger_answer ?_) fun _ => ledger_answer h
  obtain ⟨he, -⟩ := entryByHandle_some entry
  have slots : s.adm.entries.Pairwise fun a b => a.slot ≠ b.slot := h.1.2.1.imp fun lt => lt.ne
  refine ledger_renew (fun y => ?_) (fun y => ?_) (fun y => ?_) (fun y => ?_) (fun y => ?_)
    (fun y hy => ?_) h
  · split <;> rfl
  · split <;> rfl
  · split <;> rfl
  · split <;> rfl
  · split <;> rfl
  · split
    · rename_i same
      exact .inr fun _ => ⟨eq_of_distinct slots hy he same ▸ write, rfl⟩
    · exact .inl rfl

theorem cancelRequest_ledger (tag handle : Nat) (s : State) (h : Ledger p s) :
    Ledger p (cancelRequest tag handle s) := by
  unfold cancelRequest
  refine ite_keeps (fun _ => ledger_answer h) fun _ => ?_
  split
  · exact ledger_answer h
  · rename_i e entry
    exact ite_keeps (fun write => ledger_answer (ledger_removeWrite (entryByHandle_some entry).1
      (fun _ => write) (fun _ => rfl) (fun _ => rfl) h)) fun _ => ledger_answer h

theorem commitRequest_ledger (tag : Nat) (q : CommitReq) (s : State) (h : Ledger p s) :
    Ledger p (commitRequest tag q s) := by
  have finish : ∀ {u st charged used quota}, Ledger p u →
      Ledger p (u.finishCommit tag q st charged used quota) :=
    ledger_of_changes (by decide) (finishCommit_changes ..)
  have noted : ∀ {u id n}, Ledger p u → Ledger p (u.usedChanged id n) :=
    ledger_of_changes (by decide) (usedChanged_changes ..)
  unfold commitRequest
  refine ite_keeps (fun _ => ledger_answer h) fun _ => ?_
  split
  · exact ledger_answer h
  split
  · unfold commitLate
    split
    · exact finish h
    · have raised := ledger_of_changes (by decide) (raise_changes s .lateCommit q.owner.toNat) h
      dsimp only
      split
      · exact finish raised
      · rename_i made
        exact finish (noted (ledger_touch (fun _ => rfl) (fun _ => rfl)
          (ledger_ensure made raised)))
  · rename_i e entry
    refine ite_keeps (fun _ => ledger_answer h) fun right => finish (noted ?_)
    have entry : s.entryByHandle q.handle = some e := by
      split at entry
      · cases entry
      · exact entry
    have write : e.origin = .write := by
      by_contra ne
      exact right (.inr (.inl ne))
    exact ledger_removeWrite (entryByHandle_some entry).1 (fun _ => write) (fun _ => rfl)
      (fun _ => rfl) h

theorem releaseQuota_ledger (id : OwnerId) (b : Nat) (h : Ledger p s) :
    Ledger p (s.releaseQuota id b) := by
  unfold State.releaseQuota
  split
  · exact h
  · have touched : Ledger p (s.touchOwner id fun o =>
        { o with used := o.used - b, lastCharge := s.now }) :=
      ledger_touch (fun _ => rfl) (fun _ => rfl) h
    exact ledger_of_changes (by decide) (usedChanged_changes ..)
      (ite_keeps (fun _ => ledger_of_changes (by decide) (raise_changes ..) touched)
        fun _ => touched)

theorem releaseRequest_ledger (tag : Nat) (q : ReleaseReq) (s : State) (h : Ledger p s) :
    Ledger p (releaseRequest tag q s) := by
  unfold releaseRequest
  refine ite_keeps (fun _ => ledger_answer h) fun _ => ?_
  split
  · exact ledger_answer h
  · refine ite_keeps (fun _ => ledger_answer h) fun _ => ?_
    exact ledger_of_changes (by decide) (releaseRest_changes tag q _ _ _
      (fun freed retained a => .release (a.usedOf q.owner) freed retained) _)
      (releaseQuota_ledger _ _ h)

theorem openRequest_ledger (tag : Nat) (q : OpenReq) (s : State) (h : Ledger p s) :
    Ledger p (openRequest tag q s) := by
  unfold openRequest
  refine ite_keeps (fun _ => ledger_answer h) fun _ => ?_
  split
  · rename_i i _ j _ _ _
    refine ite_keeps (fun _ => ledger_answer h) fun _ => ?_
    split
    · exact ledger_answer h
    · rename_i c free
      have empty : s.context c = none := by simpa using List.find?_some free
      refine ledger_answer (ledger_congr (s := (s.putContext c (some (s.newContext q i j))).takeRef
        i q.epoch) rfl rfl rfl (ledger_of_changes (by decide) (takeRef_changes ..) ?_))
      exact ledger_putContext h fun _ jobs => jobsOk_open jobs empty rfl rfl
  · exact ledger_answer h

theorem itemRequest_ledger (tag : Nat) (q : ItemReq) (s : State) (h : Ledger p s) :
    Ledger p (itemRequest tag q s) := by
  unfold itemRequest
  refine ite_keeps (fun _ => ledger_answer h) fun _ => ?_
  split
  · exact ledger_answer h
  rename_i c x job
  have found := findJob_some job
  refine ite_keeps (fun _ => ledger_answer h) fun state => ?_
  rw [not_not] at state
  split
  · exact ledger_of_changes (by decide) (evaluateIfOver_changes ..)
      (ledger_answer (ledger_free_assembling found state h))
  · refine ledger_answer (ledger_putContext h fun hp jobs => ?_)
    have handle := (jobs.assembling c x found state).1
    refine jobsOk_put jobs found rfl (fun some => absurd handle some) fun _ => ⟨state,
      fun i hi => ?_⟩
    rcases List.mem_append.mp hi with held | new
    · exact .inl held
    · exact .inr (by rw [List.mem_singleton.mp new])

/-- A RESTORE_GO (R113): the admission, and what follows it. -/
theorem goRequest_ledger (tag : Nat) (q : JobReq) (s : State) (h : Ledger p s) :
    Ledger p (goRequest tag q s) := by
  unfold goRequest
  refine ite_keeps (fun _ => ledger_answer h) fun _ => ?_
  split
  · exact ledger_answer h
  rename_i c x job
  have found := findJob_some job
  refine ite_keeps (fun _ => ledger_answer h) fun state => ?_
  rw [ne_eq, not_not] at state
  refine ite_keeps (fun _ => ?_) fun _ => ?_
  · exact ledger_of_changes (by decide) (evaluateIfOver_changes ..)
      (ledger_answer (ledger_free_assembling found state h))
  split
  · unfold goTracked
    refine ite_keeps (fun status => ?_) fun refused => ?_
    · exact ledger_placeCopies (ledger_answer (ledger_startTracked found state status h))
    · exact ledger_of_changes (by decide) (evaluateIfOver_changes ..)
        (ledger_answer (ledger_refused found state refused h))
  · exact ledger_placeCopies (ledger_answer (ledger_startUntracked found state h))

theorem cancelJobRequest_ledger (tag : Nat) (q : JobReq) (s : State) (h : Ledger p s) :
    Ledger p (cancelJobRequest tag q s) := by
  unfold cancelJobRequest
  refine ite_keeps (fun _ => ledger_answer h) fun _ => ?_
  split
  · exact ledger_answer h
  rename_i c x job
  have found := findJob_some job
  split
  · rename_i state
    exact ledger_of_changes (by decide) (evaluateIfOver_changes ..)
      (ledger_answer (ledger_free_assembling found state h))
  · refine ledger_restoreEndStep _ (ledger_answer (ledger_testJobEnd _ ?_))
    exact ledger_putContext h fun _ jobs =>
      jobsOk_put jobs found rfl (fun _ => ⟨rfl, rfl⟩) (by simp)
  · exact ledger_restoreEndStep _ (ledger_answer (ledger_testJobEnd _ h))

theorem copiedRequest_ledger (tag : Nat) (q : CopiedReq) (s : State) (h : Ledger p s) :
    Ledger p (copiedRequest tag q s) := by
  unfold copiedRequest
  refine ite_keeps (fun _ => ledger_answer h) fun _ => ?_
  split
  · exact ledger_answer h
  rename_i c x job
  have found := findJob_some job
  split
  · exact ledger_answer h
  rename_i item held
  refine ite_keeps (fun _ => ledger_answer h) fun right => ?_
  obtain ⟨running, outstanding⟩ := not_or.mp right
  rw [ne_eq, not_not] at outstanding
  refine ledger_of_changes (by decide) (issueIfFreed_changes ..) ?_
  have copies : ∀ {u p'} [Decidable p'], Ledger p u →
      Ledger p (if p' then State.placeCopies u else u) := fun hu =>
    ite_keeps (fun _ => ledger_placeCopies hu) fun _ => hu
  refine copies (ledger_restoreEndStep _ (ledger_answer (ledger_testJobEnd _ ?_)))
  split
  · rename_i ok
    rw [ok]
    exact ledger_of_changes (by decide) (appendCurrent_changes ..)
      (ledger_copied found held outstanding running h)
  · rename_i failed
    rw [Bool.not_eq_true] at failed
    rw [failed]
    exact ledger_failed found held outstanding running h

theorem amendRequest_ledger (tag : Nat) (q : AmendReq) (s : State) (h : Ledger p s) :
    Ledger p (amendRequest tag q s) := by
  have owner : ∀ soft, Ledger p (amendOwner tag q soft s) := by
    intro soft
    unfold amendOwner
    refine ite_keeps (fun _ => ledger_answer h) fun _ => ?_
    split
    · exact ledger_answer h
    · refine ite_keeps (fun _ => ledger_answer ?_) fun _ => ledger_answer h
      exact ite_keeps (fun _ => ledger_touch (fun _ => rfl) (fun _ => rfl) h) fun _ => h
  unfold amendRequest
  refine ite_keeps (fun _ => ledger_answer h) fun _ => ?_
  split
  · exact ledger_answer h
  · exact owner true
  · exact owner false
  · exact ledger_of_changes (by decide) (amendSnapshot_changes ..) h
  · exact ledger_of_changes (by decide) (amendVolume_changes ..) h

theorem inspectRequest_ledger (tag : Nat) (q : InspectReq) (s : State) (h : Ledger p s) :
    Ledger p (inspectRequest tag q s) := by
  unfold inspectRequest
  refine ite_keeps (fun _ => ledger_answer h) fun _ => ?_
  dsimp only
  split
  · exact ledger_answer h
  · exact ledger_answer h
  · refine ite_keeps (fun _ => ledger_answer h) fun _ => ?_
    exact ledger_of_changes (by decide) (answerPart_changes ..)
      (ite_keeps (fun _ => ledger_touch (fun _ => rfl) (fun _ => rfl) h) fun _ => h)

theorem loadOwnerRequest_ledger (tag : Nat) (q : LoadOwnerReq) (s : State) (h : Ledger p s) :
    Ledger p (loadOwnerRequest tag q s) := by
  unfold loadOwnerRequest
  refine ite_keeps (fun _ => ledger_answer h) fun _ => ?_
  split
  · exact ledger_answer h
  rename_i cls _
  split
  · exact ledger_answer h
  · rename_i made
    refine ledger_answer ?_
    unfold State.loadOwner at made
    split at made
    · cases made
      exact ledger_touch (fun _ => rfl) (fun _ => rfl) h
    · rename_i new
      have id : (s.reevaluate (s.loadedOwner q cls)).id = q.owner := reevaluate_id ..
      exact ledger_add (reevaluate_reserved ..) (id ▸ new) made h

theorem loadDoneRequest_ledger (tag generation : Nat) (s : State) (h : Ledger p s) :
    Ledger p (loadDoneRequest tag generation s) := by
  unfold loadDoneRequest
  refine ite_keeps (fun _ => ledger_answer h) fun _ => ?_
  refine foldl_keeps (fun u i hu => ledger_of_changes (by decide) (evaluate_changes u i) hu) _ _ ?_
  refine ledger_of_changes (by decide) (announceServing_changes _) (ledger_answer ?_)
  refine ledger_map (fun _ => by simp) (fun _ => by simp) ?_
  have based := ledger_of_changes (by decide) (removeBases_changes _)
    (ledger_congr (s := s) (t := (s.setLink { s.link with generation }).seedRng generation)
      rfl rfl rfl h)
  exact ledger_congr (s := State.removeBases _) rfl rfl rfl based

/-! ### The commands outside the requests -/

theorem assemblyTimeout_ledger (c : Fin 4) (h : Ledger p s) : Ledger p (s.assemblyTimeout c) := by
  unfold State.assemblyTimeout
  split
  · exact h
  · rename_i x found
    refine ite_keeps (fun due => ?_) fun _ => h
    obtain ⟨-, state, -⟩ := due
    exact ledger_of_changes (l := night) (by decide) (andThen (by decide)
      (andThen (by decide) (within (by decide) (notice_changes ..)) (evaluateIfOver_changes ..))
      (flushEvent_changes ..)) (ledger_free_assembling found state h)

theorem roomArrives_ledger (h : Ledger p s) : Ledger p s.roomArrives := by
  have jobs := foldl_keeps (fun u c hu => ledger_restoreEndStep c (assemblyTimeout_ledger c hu))
    slots4 _ (ledger_of_changes (by decide) (flushEvent_changes s) h)
  refine ledger_of_changes (by decide) (issuePass_changes _) (ledger_placeCopies ?_)
  exact ledger_of_changes (l := night) (by decide) (andThen (by decide) (andThen (by decide)
    (.foldl (fun u i => within (by decide) (dupEndStep_changes u i)) _ _)
    (evaluateWaiting_changes _)) (placeCuts_changes _)) jobs

theorem usageEntry_ledger {i : Fin 16} {g : Nat} {e : OwnerId × Nat} (h : Ledger p s) :
    Ledger p (s.usageEntry i g e) := by
  unfold State.usageEntry
  refine ite_keeps (fun _ => h) fun _ => ?_
  split
  · exact h
  · rename_i o found
    have figures : ∀ k, (o.takeReport k).1.id = o.id ∧
      (o.takeReport k).1.reserved = o.reserved := by
      intro k
      unfold Owner.takeReport
      split
      · exact ⟨rfl, rfl⟩
      · split
        · exact ⟨rfl, rfl⟩
        · split
          · split <;> exact ⟨rfl, rfl⟩
          · exact ⟨rfl, rfl⟩
    dsimp only
    have put : ∀ k, Ledger p (s.setOwners (putOwner (s.reevaluate
      (o.takeReport k).1) s.owners)) := by
      intro k
      refine ledger_replace (o₁ := o) ?_ ((reevaluate_reserved ..).trans (figures k).2) h
      rw [reevaluate_id, (figures k).1, findOwner_id s found, found]
    exact ite_keeps (fun _ => ledger_of_changes (by decide) (raise_changes ..) (put _))
      fun _ => put _

theorem recordSend_ledger (h : Ledger p s) : Ledger p s.recordSend := by
  unfold State.recordSend
  refine foldl_keeps (fun u a hu => ?_) _ _ h
  obtain ⟨id, used⟩ := a
  dsimp only
  split
  · exact hu
  · rename_i o found
    exact ledger_replace (o₁ := o) (by rw [findOwner_id u found, found]) rfl hu

theorem frameSent_ledger (h : Ledger p s) : Ledger p s.frameSent := by
  unfold State.frameSent
  refine ite_keeps (fun _ => ledger_congr (s := s) rfl rfl rfl h) fun _ => ?_
  exact ledger_of_changes (by decide) (composeUsage_changes _)
    (ledger_of_changes (by decide) (setLink_changes ..) (recordSend_ledger h))

theorem peerFrame_ledger (i : Fin 16) (f : Frame) (burst : Bytes) (h : Ledger p s) :
    Ledger p (s.peerFrame i f burst) := by
  unfold State.peerFrame
  have heard : ∀ {q}, Ledger p (s.putPeer i q) := ledger_congr (s := s) rfl rfl rfl h
  refine ite_keeps (fun _ => h) fun _ => ite_keeps (fun _ => ?_) fun _ => heard
  exact ledger_of_changes (by decide) (flushEvent_changes _)
    (foldl_keeps (fun u e hu => usageEntry_ledger hu) _ _ heard)

theorem sweepVisit_ledger (k : Sweep) (o : Owner) (h : Ledger p s) :
    Ledger p (s.sweepVisit k o) := by
  have marked : ∀ x, Ledger p (s.setLink x) := fun _ => ledger_congr (s := s) rfl rfl rfl h
  exact ite_keeps (fun _ => ledger_touch (fun _ => rfl) (fun _ => rfl) (marked _))
    fun _ => marked _

theorem leaseExpiry_ledger (slot : Nat) (h : execLeaseExpiry slot s = .next t) (hs : Ledger p s) :
    Ledger p t := by
  refine whenReleased_keeps ?_ h hs
  split
  · exact hs
  rename_i e entry
  refine ite_keeps (fun passed => ?_) fun _ => hs
  have he : e ∈ s.adm.entries := List.mem_of_find?_eq_some entry
  refine ledger_of_changes (by decide) ((raise_changes ..).trans (flushEvent_changes _))
    (ledger_removeWrite he (fun hp => ?_) (fun _ => rfl) (fun _ => rfl) hs)
  match origin : e.origin with
  | .write => rfl
  | .restore c =>
    have lease := ((hs.2 hp).2.restore e he c origin).1
    rw [lease] at passed
    simp [State.passed] at passed

theorem enterChecked_ledger (h : Ledger p s) : Ledger p s.enterChecked :=
  ite_keeps (fun _ => ledger_congr (s := s) rfl rfl rfl h) fun _ =>
    ledger_of_changes (by decide) (flushEvent_changes _) (ledger_congr (s := s) rfl rfl rfl h)

/-- Empty tables are in form. -/
theorem ledger_empty (owners : s.owners = []) (adm : s.adm = { entries := [], handleCounter := 0 })
    (contexts : ∀ c, s.context c = none) : Ledger p s := by
  have no : ∀ c x, s.context c ≠ some x := fun c x h => by simp [contexts c] at h
  unfold Ledger
  rw [adm]
  refine ⟨by simp [AdmOk], fun _ => ⟨⟨fun id n hn => ?_, by simp⟩, by simp, by simp,
    fun c x _ h => absurd h (no c x), fun c x h => absurd h (no c x)⟩⟩
  simp [reservedOf, State.findOwner, owners] at hn

theorem reset_ledger : Ledger p State.reset := ledger_empty rfl rfl (by decide)

/-! ### Every command -/

/-- Every command keeps the ledger. -/
theorem exec_ledger (c : Instr) (s t : State) (h : exec c s = .next t) (hs : Ledger p s) :
    Ledger p t := by
  have port : ∀ s t, ChangesOnly [.port] s t → Ledger p s → Ledger p t :=
    fun _ _ => ledger_of_changes (by decide)
  by_cases framed : ∃ l, mayChange c = some l ∧ LeavesLedger l
  · obtain ⟨l, hl, hp⟩ := framed
    exact ledger_of_changes hp (exec_changes c hl h) hs
  cases c <;> simp only [exec] at h
  case powerOnReset => cases h; exact ledger_congr (s := State.reset) rfl rfl rfl reset_ledger
  case rstAsserted => cases h; exact ledger_congr (s := s) rfl rfl rfl hs
  case configCheck =>
    refine whenReleased_keeps (ite_keeps (fun _ => ?_) fun _ => hs) h hs
    dsimp only
    split
    · exact enterChecked_ledger (ledger_congr (s := s) rfl rfl rfl hs)
    · exact enterChecked_ledger (ledger_congr (s := s) rfl rfl rfl hs)
  case restart =>
    exact request_keeps port (fun _ _ u _ => enterChecked_ledger (ledger_answer
      (ledger_congr (s := State.reset) (t := u.restarted) rfl rfl rfl reset_ledger))) h hs
  case loadDone => exact request_keeps port loadDoneRequest_ledger h hs
  case read =>
    refine whenReleased_keeps ?_ h hs
    refine ite_keeps (fun _ => hs) fun _ => ?_
    split
    · exact hs
    · refine ite_keeps (fun _ => ?_) fun _ => hs
      have removed : ∀ q, Ledger p (s.setPort q) := fun _ => ledger_congr (s := s) rfl rfl rfl hs
      exact ite_keeps (fun _ => roomArrives_ledger (removed _)) fun _ => removed _
  case reserve => exact request_keeps port reserveRequest_ledger h hs
  case renew => exact request_keeps port renewRequest_ledger h hs
  case cancel => exact request_keeps port cancelRequest_ledger h hs
  case commit => exact request_keeps port commitRequest_ledger h hs
  case release => exact request_keeps port releaseRequest_ledger h hs
  case restoreOpen => exact request_keeps port openRequest_ledger h hs
  case restoreItem => exact request_keeps port itemRequest_ledger h hs
  case restoreGo => exact request_keeps port goRequest_ledger h hs
  case restoreCancel => exact request_keeps port cancelJobRequest_ledger h hs
  case copied => exact request_keeps port copiedRequest_ledger h hs
  case inspect => exact request_keeps port inspectRequest_ledger h hs
  case amend => exact request_keeps port amendRequest_ledger h hs
  case loadOwner => exact request_keeps port loadOwnerRequest_ledger h hs
  case copyNotice => exact whenReleased_keeps (ledger_placeCopies hs) h hs
  case assemblyDeadline =>
    refine whenReleased_keeps (ledger_mark (fun x => ?_) (fun x => ?_) (fun x => ?_) (fun x => ?_)
      hs) h hs
    · split <;> rfl
    · split <;> rfl
    · split <;> rfl
    · split <;> exact fun state => state
  case assemblyTimeout => exact whenReleased_keeps (assemblyTimeout_ledger _ hs) h hs
  case restoreEndStep => exact whenReleased_keeps (ledger_restoreEndStep _ hs) h hs
  case leaseExpiry slot => exact leaseExpiry_ledger slot h hs
  case warmUpEnd =>
    refine whenReleased_keeps ?_ h hs
    split
    · exact hs
    · exact ite_keeps (fun _ => ledger_touch (fun _ => rfl) (fun _ => rfl) hs) fun _ => hs
  case graceDeadlineExpiry =>
    refine whenReleased_keeps ?_ h hs
    split
    · exact hs
    · exact ite_keeps (fun _ => ledger_touch (fun _ => rfl) (fun _ => rfl) hs) fun _ => hs
  case forgetSweepVisit =>
    refine whenReleased_keeps ?_ h hs
    split
    · exact hs
    split
    · exact hs
    · exact ite_keeps (fun _ => sweepVisit_ledger _ _ hs) fun _ => hs
  case attemptSuccess =>
    refine whenReleased_keeps (ite_keeps (fun _ => ?_) fun _ => hs) h hs
    exact ledger_of_changes (by decide) (takeSlot_changes _) (frameSent_ledger hs)
  case frameReceived burst =>
    refine whenReleased_keeps ?_ h hs
    refine ite_keeps (fun _ => hs) fun _ => ite_keeps (fun _ => ?_) fun _ => ite_keeps (fun _ => ?_)
      fun _ => ite_keeps (fun _ => ?_) fun _ => ?_
    · exact ledger_of_changes (by decide) (linkError_changes ..) hs
    · exact ledger_of_changes (by decide) (linkError_changes ..) hs
    · exact ledger_of_changes (by decide) (stationConflict_changes _) hs
    · split
      · exact peerFrame_ledger _ _ _ hs
      · exact hs
  all_goals exact absurd ⟨_, rfl, by decide⟩ framed

theorem step_ledger (h : step s = .next t) (hs : Ledger p s) : Ledger p t := by
  refine step_keeps (fun _ _ hs => hs) (fun s hs => ?_) exec_ledger h hs
  unfold State.tick
  exact ite_keeps (fun _ => hs) fun _ => ledger_congr (s := s) rfl rfl rfl hs

theorem step_reservationTableOk (h : step s = .next t) (hs : ReservationTableOk s) :
    ReservationTableOk t :=
  have kept : Ledger False t := step_ledger h ⟨hs, False.elim⟩
  kept.1

theorem step_reservedCounted (h : step s = .next t) (ordered : OwnersOrdered s)
    (table : ReservationTableOk s) (hs : ReservedCounted s) : ReservedCounted t :=
  have kept : Ledger True t := step_ledger h ⟨table, fun _ => (reservedCounted_iff ordered).mp hs⟩
  (reservedCounted_iff (step_ownersOrdered h ordered)).mpr (kept.2 trivial)

end Sys2Proof.Proofs

/-! PROOFS. The references of the snapshots (R94 to R97): each snapshot counts the restore contexts
and the duplication roles that name it, and what these name stands. -/

namespace Sys2Proof.Proofs

open Sys2Proof.Machine Sys2Proof.Safety

/-! ### Roles and snapshots -/

/-- What the count of references reads of a volume. -/
structure VolRole where
  send : Option Nat
  base : Option Nat
  openEpoch : Nat

/-- What it reads of a snapshot. -/
structure SnapRole where
  slot : Fin 8
  epoch : Nat
  refs : Nat

variable {src : Fin 4 → Option (Fin 8 × Nat)} {vs : Fin 8 → Option VolRole} {ss : List SnapRole}
  {serving : Prop} {i j : Fin 8} {e e' n : Nat} {c : Fin 4} {v w : VolRole} {x : SnapRole}

/-- The restore contexts that name a snapshot. -/
def sourcesAt (src : Fin 4 → Option (Fin 8 × Nat)) (i : Fin 8) (e : Nat) : Nat :=
  slots4.countP fun c => src c == some (i, e)

/-- The roles of a volume that name its snapshot of an epoch. -/
def rolesAt (v : Option VolRole) (e : Nat) : Nat :=
  match v with
  | none => 0
  | some v => (if v.send = some e then 1 else 0) + if v.base = some e then 1 else 0

/-- The references that a snapshot should count. -/
def namesAt (src : Fin 4 → Option (Fin 8 × Nat)) (vs : Fin 8 → Option VolRole) (i : Fin 8)
    (e : Nat) : Nat := sourcesAt src i e + rolesAt (vs i) e

/-- A snapshot of the volume in a slot stands under an epoch. -/
def Stands (ss : List SnapRole) (i : Fin 8) (e : Nat) : Prop := ∃ x ∈ ss, x.slot = i ∧ x.epoch = e

/-- The references agree with the roles, and the roles with the snapshots. -/
structure Refs (src : Fin 4 → Option (Fin 8 × Nat)) (vs : Fin 8 → Option VolRole)
    (ss : List SnapRole) (serving : Prop) : Prop where
  counted : ∀ x ∈ ss, x.refs = namesAt src vs x.slot x.epoch
  source : ∀ c i e, src c = some (i, e) → Stands ss i e
  send : ∀ i v e, vs i = some v → v.send = some e → Stands ss i e
  base : ∀ i v e, vs i = some v → v.base = some e → e < v.openEpoch ∧ (serving → Stands ss i e)
  below : ∀ i v, vs i = some v → ∀ x ∈ ss, x.slot = i → x.epoch < v.openEpoch
  stray : ∀ i, vs i = none → ∀ x ∈ ss, x.slot ≠ i

/-- Snapshots that differ at most in a count. -/
def bump (i : Fin 8) (e : Nat) (f : Nat → Nat) (x : SnapRole) : SnapRole :=
  if x.slot = i ∧ x.epoch = e then { x with refs := f x.refs } else x

@[simp] theorem bump_slot (i : Fin 8) (e : Nat) (f : Nat → Nat) (x : SnapRole) :
    (bump i e f x).slot = x.slot := by
  unfold bump
  split <;> rfl

@[simp] theorem bump_epoch (i : Fin 8) (e : Nat) (f : Nat → Nat) (x : SnapRole) :
    (bump i e f x).epoch = x.epoch := by
  unfold bump
  split <;> rfl

theorem bump_refs (i : Fin 8) (e : Nat) (f : Nat → Nat) (x : SnapRole) :
    (bump i e f x).refs = if x.slot = i ∧ x.epoch = e then f x.refs else x.refs := by
  unfold bump
  split <;> rfl

@[simp] theorem stands_bump {f : Nat → Nat} : Stands (ss.map
  (bump i e f)) j e' ↔ Stands ss j e' := by
  simp [Stands]

theorem sourcesAt_take (free : src c = none) (i j : Fin 8) (e e' : Nat) :
    sourcesAt (Function.update src c (some (i, e))) j e' =
      sourcesAt src j e' + if i = j ∧ e = e' then 1 else 0 := by
  have others : ∀ d, d ≠ c → Function.update src c (some (i, e)) d = src d :=
    fun d hd => Function.update_of_ne hd ..
  have self : Function.update src c (some (i, e)) c = some (i, e) := Function.update_self ..
  unfold sourcesAt slots4
  simp only [List.countP_cons, List.countP_nil]
  fin_cases c <;> simp_all <;> omega

theorem sourcesAt_free (taken : src c = some (i, e)) (j : Fin 8) (e' : Nat) :
    sourcesAt src j e' =
      sourcesAt (Function.update src c none) j e' + if i = j ∧ e = e' then 1 else 0 := by
  have := sourcesAt_take (src := Function.update src c none) (c := c) (Function.update_self ..)
    i j e e'
  rwa [Function.update_idem, ← taken, Function.update_eq_self] at this

theorem rolesAt_some (v : VolRole) (e : Nat) :
    rolesAt (some v) e =
      (if v.send = some e then 1 else 0) + if v.base = some e then 1 else 0 := rfl

/-- No role names a snapshot that nothing stands for. -/
theorem Refs.rolesAt_zero (h : Refs src vs ss serving) (no : ¬Stands ss i e)
    (hv : vs i = some v) (base : v.base ≠ some e) : namesAt src vs i e = 0 := by
  have sources : sourcesAt src i e = 0 := by
    refine List.countP_eq_zero.mpr fun d _ hd => ?_
    exact no (h.source d i e (by simpa using hd))
  have send : v.send ≠ some e := fun hs => no (h.send i v e hv hs)
  simp [namesAt, sources, hv, rolesAt_some, send, base]

/-! ### The moves of a reference -/

/-- A context opens and takes its reference (R94, R108). -/
theorem Refs.openContext (h : Refs src vs ss serving) (free : src c = none)
  (stands : Stands ss i e) :
    Refs (Function.update src c (some (i, e))) vs (ss.map (bump i e (· + 1))) serving where
  counted y hy := by
    obtain ⟨x, hx, rfl⟩ := List.mem_map.mp hy
    have := h.counted x hx
    unfold namesAt at *
    rw [bump_slot, bump_epoch, bump_refs, sourcesAt_take free]
    by_cases here : x.slot = i ∧ x.epoch = e
    · rw [if_pos here, if_pos ⟨here.1.symm, here.2.symm⟩]
      omega
    · rw [if_neg here, if_neg fun k => here ⟨k.1.symm, k.2.symm⟩]
      omega
  source d j e' hd := by
    rw [stands_bump]
    by_cases hdc : d = c
    · subst hdc
      rw [Function.update_self] at hd
      cases hd
      exact stands
    · rw [Function.update_of_ne hdc] at hd
      exact h.source d j e' hd
  send := by simpa only [stands_bump] using h.send
  base := by simpa only [stands_bump] using h.base
  below k v hv y hy := by
    obtain ⟨x, hx, rfl⟩ := List.mem_map.mp hy
    simpa using h.below k v hv x hx
  stray k hk y hy := by
    obtain ⟨x, hx, rfl⟩ := List.mem_map.mp hy
    simpa using h.stray k hk x hx

/-- A context is freed and gives its reference back (R94, R120). -/
theorem Refs.freeContext (h : Refs src vs ss serving) (taken : src c = some (i, e)) :
    Refs (Function.update src c none) vs (ss.map (bump i e (· - 1))) serving where
  counted y hy := by
    obtain ⟨x, hx, rfl⟩ := List.mem_map.mp hy
    have := h.counted x hx
    unfold namesAt at *
    rw [sourcesAt_free taken] at this
    rw [bump_slot, bump_epoch, bump_refs]
    by_cases here : x.slot = i ∧ x.epoch = e
    · rw [if_pos ⟨here.1.symm, here.2.symm⟩] at this
      rw [if_pos here]
      omega
    · rw [if_neg fun k => here ⟨k.1.symm, k.2.symm⟩] at this
      rw [if_neg here]
      omega
  source d j e' hd := by
    rw [stands_bump]
    by_cases hdc : d = c
    · subst hdc
      rw [Function.update_self] at hd
      cases hd
    · rw [Function.update_of_ne hdc] at hd
      exact h.source d j e' hd
  send := by simpa only [stands_bump] using h.send
  base := by simpa only [stands_bump] using h.base
  below k v hv y hy := by
    obtain ⟨x, hx, rfl⟩ := List.mem_map.mp hy
    simpa using h.below k v hv x hx
  stray k hk y hy := by
    obtain ⟨x, hx, rfl⟩ := List.mem_map.mp hy
    simpa using h.stray k hk x hx

/-- The roles of a volume move, and the counts of its snapshots with them (R95, R146, R153). -/
theorem Refs.moveRoles {f : SnapRole → SnapRole} (h : Refs src vs ss serving) (hv : vs i = some v)
    (slot : ∀ x, (f x).slot = x.slot) (epoch : ∀ x, (f x).epoch = x.epoch)
    (other : ∀ x, x.slot ≠ i → (f x).refs = x.refs)
    (refs : ∀ x ∈ ss, x.slot = i → (f x).refs + rolesAt (some v) x.epoch =
      x.refs + rolesAt (some w) x.epoch)
    (send : ∀ e, w.send = some e → Stands ss i e)
    (base : ∀ e, w.base = some e → e < w.openEpoch ∧ (serving → Stands ss i e))
    (opened : v.openEpoch ≤ w.openEpoch) :
    Refs src (Function.update vs i (some w)) (ss.map f) serving := by
  have stands : ∀ {j e}, Stands (ss.map f) j e ↔ Stands ss j e := by
    intro j e
    simp [Stands, slot, epoch]
  refine ⟨fun y hy => ?_, fun c j e hc => stands.mpr (h.source c j e hc), fun k z e hz hs => ?_,
    fun k z e hz hb => ?_, fun k z hz y hy => ?_, fun k hk y hy => ?_⟩
  · obtain ⟨x, hx, rfl⟩ := List.mem_map.mp hy
    have was := h.counted x hx
    rw [slot, epoch]
    unfold namesAt at *
    by_cases here : x.slot = i
    · have := refs x hx here
      rw [here] at was ⊢
      rw [Function.update_self]
      rw [hv] at was
      omega
    · rw [Function.update_of_ne here, other x here, was]
  · rw [stands]
    by_cases hki : k = i
    · subst hki
      rw [Function.update_self] at hz
      obtain rfl := Option.some.inj hz
      exact send e hs
    · rw [Function.update_of_ne hki] at hz
      exact h.send k z e hz hs
  · rw [stands]
    by_cases hki : k = i
    · subst hki
      rw [Function.update_self] at hz
      obtain rfl := Option.some.inj hz
      exact base e hb
    · rw [Function.update_of_ne hki] at hz
      exact h.base k z e hz hb
  · obtain ⟨x, hx, rfl⟩ := List.mem_map.mp hy
    rw [slot, epoch]
    intro hs
    by_cases hki : k = i
    · subst hki
      rw [Function.update_self] at hz
      obtain rfl := Option.some.inj hz
      exact (h.below k v hv x hx hs).trans_le opened
    · rw [Function.update_of_ne hki] at hz
      exact h.below k z hz x hx hs
  · obtain ⟨x, hx, rfl⟩ := List.mem_map.mp hy
    rw [slot]
    refine h.stray k ?_ x hx
    by_cases hki : k = i
    · rw [hki, Function.update_self] at hk
      cases hk
    · rwa [Function.update_of_ne hki] at hk

/-- The new send role takes its reference, the old one gives its own back (R146). -/
theorem Refs.cut (h : Refs src vs ss serving) (hv : vs i = some v) (stands : Stands ss i e) :
    Refs src (Function.update vs i (some { v with send := some e }))
      ((ss.map (bump i e (· + 1))).map fun x =>
        match v.send with
        | some old => bump i old (· - 1) x
        | none => x) serving := by
  rw [List.map_map]
  refine h.moveRoles hv (fun x => ?_) (fun x => ?_) (fun x ne => ?_) (fun x hx here => ?_)
    (fun k hk => ?_) (h.base i v · hv) le_rfl
  · dsimp only [Function.comp_apply]
    split <;> simp
  · dsimp only [Function.comp_apply]
    split <;> simp
  · dsimp only [Function.comp_apply]
    split <;> simp [bump_refs, ne]
  · have was := h.counted x hx
    rw [namesAt, here, hv] at was
    simp only [rolesAt_some, Function.comp_apply, Option.some.injEq] at was ⊢
    cases hsend : v.send with
    | none =>
      simp only [hsend, reduceCtorEq, if_false] at was ⊢
      simp only [bump_refs, here, true_and, eq_comm (a := e)]
      split_ifs <;> omega
    | some old =>
      simp only [hsend, Option.some.injEq] at was ⊢
      simp only [bump_refs, bump_slot, bump_epoch, here, true_and, eq_comm (a := e),
        eq_comm (a := old)] at was ⊢
      split_ifs at was ⊢ <;> omega
  · cases hk
    exact stands

/-- The base gives its reference back, the send epoch becomes the base (R153). -/
theorem Refs.endDup (h : Refs src vs ss serving) (hv : vs i = some v) :
    Refs src (Function.update vs i (some { v with base := v.send, send := none }))
      (ss.map fun x =>
        match v.base with
        | some b => bump i b (· - 1) x
        | none => x) serving := by
  have base : ∀ e, v.send = some e → e < v.openEpoch ∧ (serving → Stands ss i e) := by
    intro e he
    have stands := h.send i v e hv he
    obtain ⟨x, hx, hs, rfl⟩ := stands
    exact ⟨h.below i v hv x hx hs, fun _ => ⟨x, hx, hs, rfl⟩⟩
  refine h.moveRoles hv (fun x => ?_) (fun x => ?_) (fun x ne => ?_) (fun x hx here => ?_)
    (fun k hk => by cases hk) base le_rfl
  · split <;> simp
  · split <;> simp
  · split <;> simp [bump_refs, ne]
  · have was := h.counted x hx
    rw [namesAt, here, hv] at was
    simp only [rolesAt_some, reduceCtorEq, if_false] at was ⊢
    cases hbase : v.base with
    | none => simp only [hbase, reduceCtorEq, if_false] at was ⊢; omega
    | some b =>
      simp only [hbase, Option.some.injEq] at was ⊢
      simp only [bump_refs, here, true_and, eq_comm (a := b)] at was ⊢
      split_ifs at was ⊢ <;> omega

/-! ### Snapshots made, loaded and deleted -/

theorem stands_append : Stands (ss ++ [x]) i e ↔ Stands ss i e ∨ (x.slot = i ∧ x.epoch = e) := by
  simp [Stands, or_and_right, exists_or]

/-- A snapshot joins that nothing stood for, below the open epoch that the volume then has. -/
theorem Refs.addSnap (h : Refs src vs ss serving) (hv : vs x.slot = some v)
    (new : ¬Stands ss x.slot x.epoch) (below : x.epoch < w.openEpoch)
    (opened : v.openEpoch ≤ w.openEpoch) (send : w.send = v.send) (base : w.base = v.base)
    (refs : x.refs = if v.base = some x.epoch then 1 else 0) :
    Refs src (Function.update vs x.slot (some w)) (ss ++ [x]) serving := by
  have names : ∀ j e, namesAt src (Function.update vs x.slot
    (some w)) j e = namesAt src vs j e := by
    intro j e
    unfold namesAt
    by_cases hj : j = x.slot
    · rw [hj, Function.update_self, hv, rolesAt_some, rolesAt_some, send, base]
    · rw [Function.update_of_ne hj]
  refine ⟨fun y hy => ?_, fun c j e hc => stands_append.mpr (.inl (h.source c j e hc)),
    fun k z e hz hs => stands_append.mpr (.inl ?_), fun k z e hz hb => ?_, fun k z hz y hy hs => ?_,
    fun k hk y hy => ?_⟩
  · rw [names]
    rcases List.mem_append.mp hy with hy | hy
    · exact h.counted y hy
    · obtain rfl := List.mem_singleton.mp hy
      rw [refs]
      split
      · rename_i hb
        have sources : sourcesAt src y.slot y.epoch = 0 := by
          refine List.countP_eq_zero.mpr fun d _ hd => new (h.source d _ _ (by simpa using hd))
        have noSend : v.send ≠ some y.epoch := fun hs => new (h.send _ v _ hv hs)
        simp [namesAt, sources, hv, rolesAt_some, noSend, hb]
      · rename_i hb
        exact (h.rolesAt_zero new hv hb).symm
  · by_cases hk : k = x.slot
    · subst hk
      rw [Function.update_self] at hz
      obtain rfl := Option.some.inj hz
      exact h.send _ v e hv (send ▸ hs)
    · rw [Function.update_of_ne hk] at hz
      exact h.send k z e hz hs
  · by_cases hk : k = x.slot
    · subst hk
      rw [Function.update_self] at hz
      obtain rfl := Option.some.inj hz
      obtain ⟨lt, stands⟩ := h.base _ v e hv (base ▸ hb)
      exact ⟨lt.trans_le opened, fun hp => stands_append.mpr (.inl (stands hp))⟩
    · rw [Function.update_of_ne hk] at hz
      obtain ⟨lt, stands⟩ := h.base k z e hz hb
      exact ⟨lt, fun hp => stands_append.mpr (.inl (stands hp))⟩
  · by_cases hk : k = x.slot
    · subst hk
      rw [Function.update_self] at hz
      obtain rfl := Option.some.inj hz
      rcases List.mem_append.mp hy with hy | hy
      · exact (h.below _ v hv y hy hs).trans_le opened
      · rw [List.mem_singleton.mp hy]
        exact below
    · rw [Function.update_of_ne hk] at hz
      rcases List.mem_append.mp hy with hy | hy
      · exact h.below k z hz y hy hs
      · rw [List.mem_singleton.mp hy] at hs
        exact absurd hs.symm hk
  · by_cases hki : k = x.slot
    · rw [hki, Function.update_self] at hk
      cases hk
    · rw [Function.update_of_ne hki] at hk
      rcases List.mem_append.mp hy with hy | hy
      · exact h.stray k hk y hy
      · rw [List.mem_singleton.mp hy]
        exact fun eq => hki eq.symm

/-- A snapshot without references leaves (R78, R98). -/
theorem Refs.delete (h : Refs src vs ss serving)
  (free : ∃ x ∈ ss, x.slot = i ∧ x.epoch = e ∧ x.refs = 0) :
    Refs src vs (ss.filter fun y => !(y.slot == i && y.epoch == e)) serving := by
  obtain ⟨x, hx, rfl, rfl, none⟩ := free
  have zero := h.counted x hx
  rw [none] at zero
  have sources : ∀ c, src c ≠ some (x.slot, x.epoch) := by
    intro c hc
    have := List.countP_eq_zero.mp (Nat.add_eq_zero_iff.mp zero.symm).1 c
      (by fin_cases c <;> decide)
    simp [hc] at this
  have roles : ∀ v, vs x.slot = some v → v.send ≠ some x.epoch ∧ v.base ≠ some x.epoch := by
    intro v hv
    have := (Nat.add_eq_zero_iff.mp zero.symm).2
    rw [hv, rolesAt_some] at this
    constructor <;> intro hs <;> simp [hs] at this
  have stands : ∀ {j e}, ¬(j = x.slot ∧ e = x.epoch) → Stands ss j e →
      Stands (ss.filter fun y => !(y.slot == x.slot && y.epoch == x.epoch)) j e := by
    rintro j e ne ⟨y, hy, rfl, rfl⟩
    exact ⟨y, List.mem_filter.mpr ⟨hy, by simpa [imp_iff_not_or] using ne⟩, rfl, rfl⟩
  refine ⟨fun y hy => h.counted y (List.mem_of_mem_filter hy), fun c j e hc => ?_,
    fun k v e hv hs => ?_, fun k v e hv hb => ?_,
    fun k v hv y hy => h.below k v hv y (List.mem_of_mem_filter hy),
    fun k hk y hy => h.stray k hk y (List.mem_of_mem_filter hy)⟩
  · refine stands ?_ (h.source c j e hc)
    rintro ⟨rfl, rfl⟩
    exact sources c hc
  · refine stands ?_ (h.send k v e hv hs)
    rintro ⟨rfl, rfl⟩
    exact (roles v hv).1 hs
  · obtain ⟨lt, base⟩ := h.base k v e hv hb
    refine ⟨lt, fun hp => stands ?_ (base hp)⟩
    rintro ⟨rfl, rfl⟩
    exact (roles v hv).2 hb

/-- A volume is loaded into a free slot while the part is not serving (R184). -/
theorem Refs.loadVolume (h : Refs src vs ss serving) (free : vs i = none) (loading : ¬serving)
    (send : w.send = none) (base : ∀ e, w.base = some e → e < w.openEpoch) :
    Refs src (Function.update vs i (some w)) ss serving where
  counted x hx := by
    have other : x.slot ≠ i := h.stray i free x hx
    unfold namesAt
    rw [Function.update_of_ne other]
    exact h.counted x hx
  source := h.source
  send k v e hv hs := by
    by_cases hk : k = i
    · subst hk
      rw [Function.update_self] at hv
      obtain rfl := Option.some.inj hv
      rw [send] at hs
      cases hs
    · rw [Function.update_of_ne hk] at hv
      exact h.send k v e hv hs
  base k v e hv hb := by
    by_cases hk : k = i
    · subst hk
      rw [Function.update_self] at hv
      obtain rfl := Option.some.inj hv
      exact ⟨base e hb, fun hp => absurd hp loading⟩
    · rw [Function.update_of_ne hk] at hv
      exact h.base k v e hv hb
  below k v hv x hx hs := by
    by_cases hk : k = i
    · exact absurd (hs.trans hk) (h.stray i free x hx)
    · rw [Function.update_of_ne hk] at hv
      exact h.below k v hv x hx hs
  stray k hk := by
    by_cases hki : k = i
    · rw [hki]
      exact h.stray i free
    · rw [Function.update_of_ne hki] at hk
      exact h.stray k hk

/-- The bases are removed for which nothing stands, and service starts (R187). -/
theorem Refs.serve {vs' : Fin 8 → Option VolRole} {serving' : Prop} (h : Refs src vs ss serving)
    (same : ∀ i, vs' i = vs i ∨ ∃ v, vs i = some v ∧ (∀ e, v.base = some e → ¬Stands ss i e) ∧
      vs' i = some { v with base := none })
    (stands : ∀ i v e, vs' i = some v → v.base = some e → Stands ss i e) :
    Refs src vs' ss serving' where
  counted x hx := by
    rw [h.counted x hx]
    unfold namesAt
    rcases same x.slot with eq | ⟨v, hv, missing, eq⟩
    · rw [eq]
    · have : v.base ≠ some x.epoch := fun hb => missing _ hb ⟨x, hx, rfl, rfl⟩
      rw [eq, hv, rolesAt_some, rolesAt_some, if_neg this]
      simp
  source := h.source
  send i w e hw hs := by
    rcases same i with eq | ⟨v, hv, -, eq⟩
    · exact h.send i w e (eq ▸ hw) hs
    · rw [eq] at hw
      cases hw
      exact h.send i v e hv hs
  base i w e hw hb := by
    refine ⟨?_, fun _ => stands i w e hw hb⟩
    rcases same i with eq | ⟨v, -, -, eq⟩
    · exact (h.base i w e (eq ▸ hw) hb).1
    · rw [eq] at hw
      cases hw
      cases hb
  below i w hw := by
    rcases same i with eq | ⟨v, hv, -, eq⟩
    · exact h.below i w (eq ▸ hw)
    · rw [eq] at hw
      cases hw
      exact h.below i v hv
  stray i hi := by
    rcases same i with eq | ⟨v, -, -, eq⟩
    · exact h.stray i (eq ▸ hi)
    · rw [eq] at hi
      cases hi

end Sys2Proof.Proofs

/-! PROOFS. The operations of the model and the references (R94 to R97). -/

namespace Sys2Proof.Proofs

open Sys2Proof.Machine Sys2Proof.Safety

variable {l : List Block} {s t u : State} {i : Fin 8} {e : Nat} {c : Fin 4} {x y : Context}
  {v w : Volume} {z : Snapshot}

/-- The snapshot that a context names as its source. -/
def sourceOf (x : Context) : Fin 8 × Nat := (x.sourceSlot, x.sourceEpoch)

/-- What the references read of a volume record. -/
def roleOf (v : Volume) : VolRole :=
  { send := v.sendEpoch, base := v.base, openEpoch := v.openEpoch }

/-- What the references read of a snapshot record. -/
def snapRole (x : Snapshot) : SnapRole := { slot := x.slot, epoch := x.epoch, refs := x.refs }

/-- The sources of the contexts, the roles of the volumes, and the snapshots. -/
def sources (s : State) (c : Fin 4) : Option (Fin 8 × Nat) := (s.context c).map sourceOf
def volRoles (s : State) (i : Fin 8) : Option VolRole := (s.vol i).map roleOf
def snapRoles (s : State) : List SnapRole := s.cat.snaps.map snapRole

/-- The references of a state agree with its roles. -/
def RefsOk (s : State) : Prop :=
  Refs (sources s) (volRoles s) (snapRoles s) (s.part = .serving)

theorem stands_iff : Stands (snapRoles s) i e ↔ (s.findSnap i e).isSome = true := by
  simp [Stands, snapRoles, snapRole, State.findSnap, List.find?_isSome]

theorem namesAt_eq (s : State) (i : Fin 8) (e : Nat) : namesAt (sources s) (volRoles s) i e =
    (s.restoresOf i e).length + (s.holdsSend i e).toNat + (s.holdsBase i e).toNat := by
  have contexts : sourcesAt (sources s) i e = (s.restoresOf i e).length := by
    unfold sourcesAt State.restoresOf
    rw [List.countP_eq_length_filter]
    congr 2
    funext c
    cases h : s.context c with
    | none => simp [sources, h]
    | some x =>
      rw [sources, h, Option.map_some, Bool.eq_iff_iff]
      simp [sourceOf]
  have roles : rolesAt (volRoles s i) e = (s.holdsSend i e).toNat + (s.holdsBase i e).toNat := by
    unfold State.holdsSend State.holdsBase
    cases h : s.vol i with
    | none => simp [volRoles, h, rolesAt]
    | some v =>
      rw [volRoles, h, Option.map_some, rolesAt_some]
      have bit : ∀ a : Option Nat, (a == some e).toNat = if a = some e then 1 else 0 := by
        intro a
        split
        · rename_i eq
          rw [eq, beq_self_eq_true]
          rfl
        · rename_i ne
          rw [beq_eq_false_iff_ne.mpr ne]
          rfl
      dsimp only
      rw [bit, bit]
      rfl
  rw [namesAt, contexts, roles, Nat.add_assoc]

theorem volRoles_some {r : VolRole} (h : volRoles s i = some r) :
    ∃ v, s.vol i = some v ∧ r = roleOf v := by
  obtain ⟨v, hv, rfl⟩ := Option.map_eq_some_iff.mp h
  exact ⟨v, hv, rfl⟩

theorem refsOk_of_counted (retained : RetainedCounted s) (h : ReferencesCounted s) : RefsOk s := by
  obtain ⟨counted, contexts, roles⟩ := h
  obtain ⟨below, free, -⟩ := retained
  have mem : ∀ k : SnapRole, k ∈ snapRoles s → ∃ z ∈ s.cat.snaps, k = snapRole z := fun k hk => by
    obtain ⟨z, hz, rfl⟩ := List.mem_map.mp hk
    exact ⟨z, hz, rfl⟩
  refine ⟨fun k hk => ?_, fun c j e hc => ?_, fun j r e hr he => ?_, fun j r e hr he => ?_,
    fun j r hr k hk hj => ?_, fun j hj k hk same => ?_⟩
  · obtain ⟨z, hz, rfl⟩ := mem k hk
    exact (counted z hz).trans (namesAt_eq ..).symm
  · obtain ⟨y, hy, eq⟩ := Option.map_eq_some_iff.mp hc
    cases eq
    exact stands_iff.mpr (contexts c y hy)
  · obtain ⟨v, hv, rfl⟩ := volRoles_some hr
    exact stands_iff.mpr ((roles j v hv).1 e he)
  · obtain ⟨v, hv, rfl⟩ := volRoles_some hr
    obtain ⟨lt, stands⟩ := (roles j v hv).2 e he
    exact ⟨lt, fun hp => stands_iff.mpr (stands hp)⟩
  · obtain ⟨z, hz, rfl⟩ := mem k hk
    obtain ⟨v, hv, rfl⟩ := volRoles_some hr
    exact (below j v hv).2 z (List.mem_filter.mpr ⟨hz, beq_iff_eq.mpr hj⟩)
  · obtain ⟨z, hz, rfl⟩ := mem k hk
    have none : s.snapsOf j = [] := free j (Option.map_eq_none_iff.mp hj)
    have : z ∈ s.snapsOf j := List.mem_filter.mpr ⟨hz, beq_iff_eq.mpr same⟩
    rw [none] at this
    cases this

theorem counted_of_refsOk (h : RefsOk s) : ReferencesCounted s := by
  refine ⟨fun z hz => ?_, fun c y hy => ?_, fun j v hv => ⟨fun e he => ?_, fun e he => ?_⟩⟩
  · exact (h.counted (snapRole z) (List.mem_map_of_mem hz)).trans (namesAt_eq ..)
  · exact stands_iff.mp (h.source c _ _ (Option.map_eq_some_iff.mpr ⟨y, hy, rfl⟩))
  · exact stands_iff.mp (h.send j _ e (Option.map_eq_some_iff.mpr ⟨v, hv, rfl⟩) he)
  · obtain ⟨lt, stands⟩ := h.base j _ e (Option.map_eq_some_iff.mpr ⟨v, hv, rfl⟩) he
    exact ⟨lt, fun hp => stands_iff.mp (stands hp)⟩

/-! ### Operations that move no reference -/

theorem refs_congr (hc : sources t = sources s) (hv : volRoles t = volRoles s)
    (hz : snapRoles t = snapRoles s) (hp : t.part = s.part) (h : RefsOk s) : RefsOk t := by
  unfold RefsOk at *
  rwa [hc, hv, hz, hp]

theorem refs_of_changes (hp : .cat ∉ l ∧ .rsc ∉ l) (h : ChangesOnly l s t) (hs : RefsOk s) :
    RefsOk t := by
  have cat : t.cat = s.cat := h.2 .cat hp.1
  have rsc : t.rsc = s.rsc := h.2 .rsc hp.2
  refine refs_congr ?_ ?_ ?_ h.1.2.1 hs
  · funext c
    simp only [sources, State.context, rsc]
  · funext i
    simp only [volRoles, State.vol, cat]
  · simp only [snapRoles, cat]

theorem refs_answer {kind tag : Nat} {st : Status} {b : Body} (h : RefsOk s) :
    RefsOk (s.answer kind tag st b) := refs_of_changes (by decide) (answer_changes ..) h

theorem refs_notice {n : Nat} {b : Body} (h : RefsOk s) : RefsOk (s.notice n b) :=
  refs_of_changes (by decide) (notice_changes ..) h

theorem refs_flushEvent (h : RefsOk s) : RefsOk s.flushEvent :=
  refs_of_changes (by decide) (flushEvent_changes _) h

theorem refs_raise {k : EventKind} {n : Nat} (h : RefsOk s) : RefsOk (s.raise k n) :=
  refs_of_changes (by decide) (raise_changes ..) h

theorem volRoles_putVol (i : Fin 8) (w : Option Volume) :
    volRoles (s.putVol i w) = Function.update (volRoles s) i (w.map roleOf) := by
  funext j
  by_cases h : j = i
  · rw [h, Function.update_self, volRoles, vol_putVol_self]
  · rw [Function.update_of_ne h, volRoles, vol_putVol_other s h, volRoles]

theorem sources_putContext (c : Fin 4) (y : Option Context) :
    sources (s.putContext c y) = Function.update (sources s) c (y.map sourceOf) := by
  funext d
  by_cases h : d = c
  · rw [h, Function.update_self, sources, context_putContext_self]
  · rw [Function.update_of_ne h, sources, context_putContext_other s h, sources]

/-- A volume record is written whose roles are those that it had. -/
theorem refs_putVol (found : s.vol i = some v) (same : roleOf w = roleOf v) (h : RefsOk s) :
    RefsOk (s.putVol i (some w)) := by
  refine refs_congr (s := s) rfl ?_ rfl rfl h
  rw [volRoles_putVol, Option.map_some, same, Function.update_eq_self_iff, volRoles, found]
  rfl

theorem refs_modifyVol {f : Volume → Volume} (same : ∀ v, roleOf (f v) = roleOf v) (h : RefsOk s) :
    RefsOk (s.modifyVol i f) := by
  unfold State.modifyVol
  split
  · exact h
  · rename_i v found
    exact refs_putVol found (same v) h

theorem refs_putContext (found : s.context c = some x) (same : sourceOf y = sourceOf x)
    (h : RefsOk s) : RefsOk (s.putContext c (some y)) := by
  refine refs_congr (s := s) ?_ rfl rfl rfl h
  rw [sources_putContext, Option.map_some, same, Function.update_eq_self_iff, sources, found]
  rfl

theorem refs_modifyContext {f : Context → Context} (same : ∀ x, sourceOf (f x) = sourceOf x)
    (h : RefsOk s) : RefsOk (s.modifyContext c f) := by
  unfold State.modifyContext
  split
  · exact h
  · rename_i x found
    exact refs_putContext found (same x) h

theorem snapRoles_modifySnap {f : Snapshot → Snapshot} {g : Nat → Nat}
    (hf : ∀ z, snapRole (f z) = { slot := z.slot, epoch := z.epoch, refs := g z.refs }) :
    snapRoles (s.modifySnap i e f) = (snapRoles s).map (bump i e g) := by
  have each : ∀ z : Snapshot, snapRole (if z.slot = i ∧ z.epoch = e then f z else z) =
      bump i e g (snapRole z) := by
    intro z
    by_cases here : z.slot = i ∧ z.epoch = e
    · rw [if_pos here, hf]
      exact (if_pos here).symm
    · rw [if_neg here]
      exact (if_neg here).symm
  unfold snapRoles State.modifySnap
  rw [List.map_map]
  exact (List.map_map ..).trans (List.map_congr_left fun z _ => each z)

theorem snapRoles_modifySnap_same {f : Snapshot → Snapshot} (same : ∀ z, snapRole
  (f z) = snapRole z) :
    snapRoles (s.modifySnap i e f) = snapRoles s := by
  rw [snapRoles_modifySnap (g := fun n => n) same]
  refine (List.map_congr_left fun z _ => ?_).trans (List.map_id _)
  unfold bump
  split <;> rfl

theorem refs_modifySnap {f : Snapshot → Snapshot} (same : ∀ z, snapRole (f z) = snapRole z)
    (h : RefsOk s) : RefsOk (s.modifySnap i e f) :=
  refs_congr (s := s) rfl rfl (snapRoles_modifySnap_same same) rfl h

theorem snapRoles_takeRef : snapRoles (s.takeRef i e) = (snapRoles s).map (bump i e (· + 1)) :=
  snapRoles_modifySnap fun _ => rfl

theorem snapRoles_giveRef : snapRoles (s.giveRef i e) = (snapRoles s).map (bump i e (· - 1)) :=
  snapRoles_modifySnap fun _ => rfl

@[simp] theorem roleOf_settle (v : Volume) : roleOf v.settle = roleOf v := by
  unfold Volume.settle
  split <;> rfl

/-! ### The catalogue -/

theorem appendCurrent_refs {a : Extent} (h : RefsOk s) : RefsOk (s.appendCurrent i a) := by
  unfold State.appendCurrent
  split
  · exact h
  · rename_i v found
    refine ite_keeps (fun _ => h) fun _ => ite_keeps (fun _ => ?_) fun _ => refs_raise ?_
    · exact refs_putVol (w := { v with current := _ }) found rfl h
    · exact refs_putVol (w := { v with current := [], fullScan := true }) found rfl h

theorem appendExtent_refs {volume start length : Nat} (h : RefsOk s) :
    RefsOk (s.appendExtent volume start length) := by
  unfold State.appendExtent
  split
  · exact h
  · exact ite_keeps (fun _ => h) fun _ => appendCurrent_refs h

theorem retainBlocks_refs {n : Nat} {b : Bucket} (h : RefsOk s) : RefsOk
  (s.retainBlocks i e n b) := by
  unfold State.retainBlocks
  split
  · exact h
  · exact ite_keeps (fun _ => refs_raise (refs_modifySnap (fun _ => rfl) h))
      fun _ => refs_modifySnap (fun _ => rfl) h

theorem releaseRetention_refs {birth n : Nat} (h : RefsOk s) :
    RefsOk (s.releaseRetention i v birth n).2.2 := by
  unfold State.releaseRetention
  split
  · exact h
  · split
    · exact h
    · dsimp only
      split
      · exact h
      · exact refs_modifyVol (fun _ => rfl) (retainBlocks_refs h)

/-- The snapshots behind the blocks that a deletion moves. -/
theorem snapRoles_retain {n : Nat} {b : Bucket} : snapRoles
  (s.retainBlocks i e n b) = snapRoles s := by
  have same : ∀ l, snapRoles (s.modifySnap i e fun y => { y with buckets := l }) = snapRoles s :=
    fun _ => snapRoles_modifySnap_same fun _ => rfl
  unfold State.retainBlocks
  split
  · rfl
  · dsimp only
    split
    · exact same _
    · exact same _

/-- A deletion step takes away a snapshot that nothing refers to (R78). -/
theorem deletionStep_refs (free : ∃ k ∈ snapRoles s, k.slot = i ∧ k.epoch = z.epoch ∧ k.refs = 0)
    (h : RefsOk s) : RefsOk (s.deletionStep i v z).2 := by
  have moved : ∀ kept : List Bucket, ∀ r,
      RefsOk (kept.foldl (fun s b => s.retainBlocks i r v.id b) s) ∧
      snapRoles (kept.foldl (fun s b => s.retainBlocks i r v.id b) s) = snapRoles s := fun kept r =>
    foldl_keeps (P := fun u => RefsOk u ∧ snapRoles u = snapRoles s)
      (fun u b hu => ⟨retainBlocks_refs hu.1, snapRoles_retain.trans hu.2⟩) kept s ⟨h, rfl⟩
  unfold State.deletionStep
  refine refs_modifyVol (fun w => roleOf_settle _) ?_
  obtain ⟨ok, same⟩ := moved (movedBuckets (s.nextOlder i z.epoch) z.buckets)
    ((s.nextOlder i z.epoch).getD 0)
  have deleted := ok.delete (i := i) (e := z.epoch) (same ▸ free)
  unfold snapRoles at deleted
  rw [List.filter_map] at deleted
  exact deleted

theorem foldl_min_mem (xs : List Nat) (b : Option Nat)
    (h : xs.foldl (fun m e => some (min (m.getD e) e)) b = some e) : b = some e ∨ e ∈ xs := by
  induction xs generalizing b with
  | nil => exact .inl h
  | cons a as ih =>
    rcases ih _ h with found | found
    · cases b with
      | none => exact .inr (by simp_all)
      | some b =>
        have : min b a = e := Option.some.inj found
        rcases Nat.le_total b a with le | le
        · exact .inl (by rw [← this, Nat.min_eq_left le])
        · exact .inr (by rw [← this, Nat.min_eq_right le]; simp)
    · exact .inr (List.mem_cons_of_mem _ found)

theorem least_mem {xs : List Nat} (h : least xs = some e) : e ∈ xs :=
  (foldl_min_mem xs none h).resolve_left (by simp)

theorem findSnap_some
  (h : s.findSnap i e = some z) : z ∈ s.cat.snaps ∧ z.slot = i ∧ z.epoch = e := by
  refine ⟨List.mem_of_find?_eq_some h, ?_⟩
  simpa using List.find?_some h

/-- The candidate for expiry has no references (R80). -/
theorem candidate_free (h : s.candidate i = some e) :
    ∃ k ∈ snapRoles s, k.slot = i ∧ k.epoch = e ∧ k.refs = 0 := by
  obtain ⟨y, hy, rfl⟩ := List.mem_map.mp (least_mem h)
  obtain ⟨hy, eligible⟩ := List.mem_filter.mp hy
  obtain ⟨hy, slot⟩ := List.mem_filter.mp hy
  simp only [Snapshot.eligible, Snapshot.deletable, Bool.and_eq_true, beq_iff_eq] at eligible
  exact ⟨snapRole y, List.mem_map_of_mem hy, beq_iff_eq.mp slot, rfl, eligible.1.2⟩

theorem evaluate_refs (i : Fin 8) (h : RefsOk s) : RefsOk (s.evaluate i) := by
  unfold State.evaluate
  generalize s.cat.snaps.length + 1 = rounds
  induction rounds generalizing s with
  | zero => exact h
  | succ rounds ih =>
    unfold evaluateRounds
    split
    · exact h
    rename_i v found
    refine ite_keeps (fun _ => refs_putVol (w := { v with expiryWaiting := false }) found rfl h)
      fun _ => ?_
    have reported : RefsOk (s.putVol i (some
      { v with expiryWaiting := false, overReported := true })) :=
      refs_putVol found rfl h
    split
    · exact ite_keeps (fun _ => reported) fun _ => refs_flushEvent (refs_raise reported)
    · rename_i z expiring
      refine ite_keeps (fun _ => ih (refs_flushEvent (refs_notice ?_)))
        fun _ => refs_putVol (w := { v with expiryWaiting := true }) found rfl h
      obtain ⟨e, candidate, snap⟩ := Option.bind_eq_some_iff.mp expiring
      obtain ⟨-, -, rfl⟩ := findSnap_some snap
      refine deletionStep_refs (candidate_free ?_) h
      split at candidate
      · exact candidate
      · cases candidate

theorem evaluateIfOver_refs (i : Fin 8) (h : RefsOk s) : RefsOk (s.evaluateIfOver i) := by
  unfold State.evaluateIfOver
  split
  · exact h
  · exact ite_keeps (fun _ => evaluate_refs i h) fun _ => h

theorem evaluateWaiting_refs (h : RefsOk s) : RefsOk s.evaluateWaiting := by
  unfold State.evaluateWaiting
  refine ite_keeps (fun _ => foldl_keeps (fun u i hu => ?_) _ _ h) fun _ => h
  unfold State.evaluateFlagged
  split
  · exact hu
  · exact ite_keeps (fun _ => evaluate_refs i hu) fun _ => hu

/-! ### The night -/

theorem issueTicket_refs (found : s.vol i = some v) (h : RefsOk s) : RefsOk
  (s.issueTicket i v) := by
  unfold State.issueTicket
  split
  · exact h
  · refine refs_notice (refs_congr (s := s.putVol i (some { v with
      send := _, outstanding := v.outstanding + 1 })) rfl rfl rfl rfl ?_)
    exact refs_putVol found rfl h

theorem head_found (h : s.head = some (i, v)) : s.vol i = some v := by
  unfold State.head at h
  obtain ⟨d, -, hd⟩ := List.exists_of_findSome?_eq_some h
  dsimp only at hd
  split at hd
  · rename_i found
    split at hd
    · cases hd
      exact found
    · cases hd
  · cases hd

theorem issuePass_refs (h : RefsOk s) : RefsOk s.issuePass := by
  unfold State.issuePass
  generalize 16 = rounds
  induction rounds generalizing s with
  | zero => exact h
  | succ rounds ih =>
    unfold issueRounds
    split
    · exact h
    · rename_i head
      exact ite_keeps (fun _ => ih (issueTicket_refs (head_found head) h)) fun _ => h

theorem issueIfFreed_refs {n : Nat} (h : RefsOk s) : RefsOk (s.issueIfFreed n) :=
  ite_keeps (fun _ => issuePass_refs h) fun _ => h

theorem setDup_refs {d : Duplication} (h : RefsOk s) : RefsOk (s.setDup d) :=
  refs_congr (s := s) rfl rfl rfl rfl h

theorem closeIfDone_refs (h : RefsOk s) : RefsOk s.closeIfDone := by
  unfold State.closeIfDone
  refine ite_keeps (fun _ => foldl_keeps (fun u i hu => ?_) _ _ (setDup_refs h)) fun _ => h
  split
  · exact hu
  · rename_i v found
    refine ite_keeps (fun _ => refs_raise (refs_putVol found rfl hu)) fun _ =>
      ite_keeps (fun _ => refs_raise (refs_putVol found rfl hu)) fun _ => hu

theorem minuteChanged_refs {m : Nat} (h : RefsOk s) : RefsOk (s.minuteChanged m) := by
  unfold State.minuteChanged
  refine ite_keeps (fun _ => ?_) fun _ => h
  split
  · refine ite_keeps (fun _ => setDup_refs (foldl_keeps (fun u i hu => refs_modifyVol
      (fun v => ?_) hu)
      _ _ (setDup_refs h))) fun _ => h
    split <;> rfl
  · exact ite_keeps (fun _ => h) fun _ => closeIfDone_refs (setDup_refs h)
  · exact h

theorem placeCuts_refs (h : RefsOk s) : RefsOk s.placeCuts := by
  unfold State.placeCuts
  refine foldl_keeps (fun u i hu => ?_) _ _ h
  split
  · exact hu
  · rename_i v found
    exact ite_keeps (fun _ => refs_notice (refs_putVol (w :=
      { v with cutDue := false, cutDeadline := _ })
      found rfl hu)) fun _ => hu

theorem testEnd_refs (h : RefsOk s) : RefsOk (s.testEnd i) := by
  unfold State.testEnd
  split
  · exact h
  · rename_i v found
    exact ite_keeps (fun _ => refs_putVol found rfl h) fun _ => h

theorem testAtRisk_refs (h : RefsOk s) : RefsOk s.testAtRisk := by
  unfold State.testAtRisk
  refine ite_keeps (fun _ => ?_) fun _ => h
  refine List.foldlRecOn (motive := fun acc : Nat × State => RefsOk acc.2) _ _ h
    fun acc hacc a _ => ?_
  unfold riskStep
  split
  · rename_i v _ found
    split
    · exact refs_raise (refs_putVol (w := { v with atRisk := true }) found rfl hacc)
    · exact hacc
  · exact hacc

/-- The state in which an end has moved the roles of its volume (R153). -/
theorem endDup_refs (found : s.vol i = some v)
    (same : roleOf w = { roleOf v with base := v.sendEpoch, send := none }) (h : RefsOk s) :
    RefsOk ((match v.base with
      | some b => s.giveRef i b
      | none => s).putVol i (some w)) := by
  have role : volRoles s i = some (roleOf v) := by rw [volRoles, found, Option.map_some]
  have moved := h.endDup role
  cases hb : v.base with
  | none =>
    have : (roleOf v).base = none := hb
    simp only [this, List.map_id'] at moved
    unfold RefsOk
    rw [volRoles_putVol, Option.map_some, same]
    exact moved
  | some b =>
    have : (roleOf v).base = some b := hb
    simp only [this] at moved
    unfold RefsOk
    rw [volRoles_putVol, Option.map_some, same,
      show snapRoles ((s.giveRef i b).putVol i (some w)) = _ from snapRoles_giveRef]
    exact moved

theorem dupEndStep_refs (i : Fin 8) (h : RefsOk s) : RefsOk (s.dupEndStep i) := by
  unfold State.dupEndStep
  split
  · exact h
  · rename_i v found
    refine ite_keeps (fun _ => refs_flushEvent (closeIfDone_refs (evaluateIfOver_refs i
      (refs_notice ?_)))) fun _ => h
    exact endDup_refs found rfl h

/-! ### Restore jobs -/

/-- A context is freed and its source reference given back (R94, R120). -/
theorem freeContext_refs (found : s.context c = some x) (h : RefsOk s) :
    RefsOk (s.freeContext c x) := by
  have here : sources s c = some (x.sourceSlot, x.sourceEpoch) := by
    rw [sources, found, Option.map_some, sourceOf]
  have freed := h.freeContext here
  unfold RefsOk State.freeContext
  rw [snapRoles_giveRef,
    show sources ((s.putContext c none).giveRef x.sourceSlot x.sourceEpoch) = _ from
      sources_putContext c none]
  exact freed

/-- A context opens on a snapshot that stands and takes its reference (R94, R108). -/
theorem openContext_refs (free : s.context c = none) {y : Context}
    (stands : (s.findSnap y.sourceSlot y.sourceEpoch).isSome = true) (h : RefsOk s) :
    RefsOk ((s.putContext c (some y)).takeRef y.sourceSlot y.sourceEpoch) := by
  have here : sources s c = none := by rw [sources, free, Option.map_none]
  have opened := h.openContext here (stands_iff.mpr stands)
  unfold RefsOk
  rw [snapRoles_takeRef,
    show sources ((s.putContext c (some y)).takeRef y.sourceSlot y.sourceEpoch) = _ from
      sources_putContext c (some y)]
  exact opened

theorem placeCopies_refs (h : RefsOk s) : RefsOk s.placeCopies := by
  unfold State.placeCopies
  generalize 16 = rounds
  induction rounds generalizing s with
  | zero => exact h
  | succ rounds ih =>
    unfold copyRounds
    split
    · exact h
    · rename_i c x next
      refine ite_keeps (fun _ => ih ?_) fun _ => h
      unfold State.placeCopy
      dsimp only
      split
      · exact h
      · refine refs_notice (refs_congr (s := s.putContext c (some { x with
          items := _, outstanding := x.outstanding + 1 })) rfl rfl rfl rfl ?_)
        exact refs_putContext (nextCopy_some next).1 rfl h

theorem restoreEnds_refs (h : RefsOk s) : RefsOk s.restoreEnds := by
  unfold State.restoreEnds
  exact ite_keeps (fun _ => issuePass_refs (setDup_refs h)) fun _ => setDup_refs h

theorem testJobEnd_refs (c : Fin 4) (h : RefsOk s) : RefsOk (s.testJobEnd c) :=
  refs_modifyContext (fun x => by split <;> rfl) h

theorem restoreEndStep_refs (c : Fin 4) (h : RefsOk s) : RefsOk (s.restoreEndStep c) := by
  unfold State.restoreEndStep
  split
  · exact h
  rename_i x found
  refine ite_keeps (fun _ => refs_flushEvent (evaluateIfOver_refs _ (restoreEnds_refs
    (refs_notice ?_)))) fun _ => h
  split
  · rename_i e _
    have only := removeEntry_changes s e fun o => o
    refine freeContext_refs ?_ (refs_of_changes (by decide) only h)
    rw [context_of_changes (by decide) only, found]
  · exact freeContext_refs found h

theorem assemblyTimeout_refs (c : Fin 4) (h : RefsOk s) : RefsOk (s.assemblyTimeout c) := by
  unfold State.assemblyTimeout
  split
  · exact h
  · rename_i x found
    exact ite_keeps (fun _ => refs_flushEvent (evaluateIfOver_refs _ (refs_notice
      (freeContext_refs found h)))) fun _ => h

theorem roomArrives_refs (h : RefsOk s) : RefsOk s.roomArrives := by
  have jobs := foldl_keeps (fun u c hu => restoreEndStep_refs c (assemblyTimeout_refs c hu)) slots4
    _ (refs_flushEvent h)
  exact issuePass_refs (placeCopies_refs (placeCuts_refs (evaluateWaiting_refs
    (foldl_keeps (fun u i hu => dupEndStep_refs i hu) slots8 _ jobs))))

end Sys2Proof.Proofs

/-! PROOFS. Every command keeps the references of the snapshots (R94 to R97); with the ledger this
settles O59. -/

namespace Sys2Proof.Proofs

open Sys2Proof.Machine Sys2Proof.Safety

variable {l : List Block} {s t u : State} {i : Fin 8} {e : Nat} {c : Fin 4} {x y : Context}
  {v w : Volume}

theorem findVol_some {id : Nat} (h : s.findVol id = some (i, v)) : s.vol i = some v := by
  unfold State.findVol at h
  obtain ⟨j, -, hj⟩ := List.exists_of_findSome?_eq_some h
  split at hj
  · rename_i found
    split at hj
    · cases hj
      exact found
    · cases hj
  · cases hj

/-! ### SNAPSHOT and the cut -/

theorem volRoles_of (found : s.vol i = some v) : volRoles s i = some (roleOf v) := by
  rw [volRoles, found, Option.map_some]

/-- No snapshot of a volume stands under its open epoch (R71). -/
theorem not_stands_openEpoch (found : s.vol i = some v) (h : RefsOk s) :
    ¬Stands (snapRoles s) i v.openEpoch := by
  rintro ⟨k, hk, slot, epoch⟩
  have : k.epoch < v.openEpoch := h.below i _ (volRoles_of found) k hk slot
  omega

theorem makeSnapshot_refs {kind : SnapKind} {label : Nat} (found : s.vol i = some v)
  (h : RefsOk s) :
    RefsOk (s.makeSnapshot i v kind label) := by
  have noBase : (roleOf v).base ≠ some v.openEpoch := by
    intro hb
    have : v.openEpoch < v.openEpoch := (h.base i _ _ (volRoles_of found) hb).1
    omega
  have added := h.addSnap (x := { slot := i, epoch := v.openEpoch, refs := 0 })
    (w := roleOf { v with openEpoch := v.openEpoch + 1 }) (volRoles_of found)
    (not_stands_openEpoch found h) (Nat.lt_succ_self _) (Nat.le_succ _) rfl rfl (if_neg noBase).symm
  unfold RefsOk State.makeSnapshot
  rw [volRoles_putVol]
  have snaps : snapRoles ((s.setCat { s.cat with
      snaps := s.cat.snaps ++ [s.newSnapshot i v kind label] }).putVol i
      (some { v with openEpoch := v.openEpoch + 1 })) =
      snapRoles s ++ [{ slot := i, epoch := v.openEpoch, refs := 0 }] := List.map_append ..
  rw [snaps]
  exact added

theorem roleOf_cutLists (v : Volume) : roleOf v.cutLists.1 = roleOf v := by
  unfold Volume.cutLists
  split <;> rfl

/-- The volume record that a cut leaves (R146). -/
def cutRecord (v : Volume) (e : Nat) : Volume :=
  { v.cutLists.1 with
    openEpoch := e + 1, cutDeadline := none, cutDue := false, sendEpoch := some e, dup := .sending }

theorem roleOf_cutRecord (v : Volume) (e : Nat) :
    roleOf (cutRecord v e) = { send := some e, base := v.base, openEpoch := e + 1 } := by
  have := congrArg VolRole.base (roleOf_cutLists v)
  simp only [roleOf, cutRecord] at this ⊢
  rw [this]

/-- The cut moves the send role to the new snapshot (R146). -/
theorem cutVolume_refs (found : s.vol i = some { v with openEpoch := e + 1 })
    (stands : Stands (snapRoles s) i e) (h : RefsOk s) : RefsOk (s.cutVolume i v e) := by
  have cut := h.cut (volRoles_of found) stands
  unfold State.cutVolume
  refine testEnd_refs (refs_congr (s := (match v.sendEpoch with
    | some old => (s.takeRef i e).giveRef i old
    | none => s.takeRef i e).putVol i (some (cutRecord v e))) rfl rfl rfl rfl ?_)
  unfold RefsOk
  rw [volRoles_putVol, Option.map_some, roleOf_cutRecord]
  cases hs : v.sendEpoch with
  | none =>
    simp only [roleOf, hs, List.map_id'] at cut
    rw [show snapRoles ((s.takeRef i e).putVol i _) = _ from snapRoles_takeRef]
    exact cut
  | some old =>
    simp only [roleOf, hs] at cut
    rw [show snapRoles (((s.takeRef i e).giveRef i old).putVol i _) = _ from snapRoles_giveRef,
      snapRoles_takeRef]
    exact cut

theorem snapshotRequest_refs (tag : Nat) (q : SnapshotReq) (s : State) (h : RefsOk s) :
    RefsOk (snapshotRequest tag q s) := by
  unfold snapshotRequest
  split
  · exact refs_answer h
  rename_i kind _
  refine ite_keeps (fun _ => refs_answer h) fun _ => ?_
  split
  · exact refs_answer h
  rename_i i v volume
  have found := findVol_some volume
  split
  · exact refs_answer h
  have made := makeSnapshot_refs (kind := kind) (label := q.label) found h
  refine ite_keeps (fun _ => issuePass_refs ?_) fun _ => refs_answer made
  have stands : Stands (snapRoles (s.makeSnapshot i v kind q.label)) i v.openEpoch :=
    ⟨_, List.mem_map_of_mem (List.mem_append_right _ (List.mem_singleton_self _)), rfl, rfl⟩
  have cut := dupEndStep_refs i (refs_answer (kind := 6) (tag := tag) (st := .ok)
    (b := .snapshot v.openEpoch) (cutVolume_refs (vol_putVol_self ..) stands made))
  exact ite_keeps (fun _ => evaluateIfOver_refs i cut) fun _ => cut

/-! ### The reload -/

/-- LOAD_VOLUME while the part is not serving (R184). -/
theorem loadVolumeRequest_refs (tag : Nat) (q : LoadVolumeReq) (s : State)
    (loading : s.part ≠ .serving) (h : RefsOk s) : RefsOk (loadVolumeRequest tag q s) := by
  unfold loadVolumeRequest
  refine ite_keeps (fun _ => refs_answer h) fun right => ?_
  split
  · exact refs_answer h
  rename_i i free
  refine refs_answer ?_
  have empty : volRoles s i = none := by
    rw [volRoles, Option.map_eq_none_iff]
    simpa using List.find?_some free
  unfold RefsOk
  rw [volRoles_putVol]
  refine h.loadVolume empty loading rfl fun e he => ?_
  simp only [roleOf, LoadVolumeReq.record] at he
  split at he
  · rename_i present
    cases he
    have fields := (not_or.mp right).1
    simp [LoadVolumeReq.fieldsOk, present] at fields
    exact fields.2.2
  · cases he

theorem greatest_ge {xs : List Nat} (h : e ∈ xs) : e ≤ (greatest xs).getD 0 := by
  have fold : ∀ (xs : List Nat) (b : Option Nat), (∀ a ∈ b, a ≤
        ((xs.foldl (fun m e => some (max (m.getD e) e)) b).getD 0)) ∧
      ∀ a ∈ xs, a ≤ ((xs.foldl (fun m e => some (max (m.getD e) e)) b).getD 0) := by
    intro xs
    induction xs with
    | nil => exact fun b => ⟨fun a ha => by rw [Option.mem_def.mp ha]; exact le_rfl, by simp⟩
    | cons x xs ih =>
      intro b
      obtain ⟨start, rest⟩ := ih (some (max (b.getD x) x))
      have top := start _ rfl
      refine ⟨fun a ha => ?_, fun a ha => ?_⟩
      · rw [Option.mem_def.mp ha] at top ⊢
        exact (le_max_left ..).trans top
      · rcases List.mem_cons.mp ha with rfl | ha
        · exact (le_max_right ..).trans top
        · exact rest a ha
  exact (fold xs none).2 e h

theorem loadSnapshotRequest_refs (tag : Nat) (q : LoadSnapshotReq) (s : State) (h : RefsOk s) :
    RefsOk (loadSnapshotRequest tag q s) := by
  unfold loadSnapshotRequest
  split
  · exact refs_answer h
  rename_i kind _
  refine ite_keeps (fun _ => refs_answer h) fun _ => ?_
  split
  · exact refs_answer h
  rename_i i v volume
  have found := findVol_some volume
  refine ite_keeps (fun _ => refs_answer h) fun right => ite_keeps (fun _ => refs_answer h)
    fun _ => refs_answer ?_
  obtain ⟨below, newer⟩ := not_or.mp right
  have newer := (not_or.mp newer).1
  have new : ¬Stands (snapRoles s) i q.epoch := by
    rintro ⟨k, hk, slot, epoch⟩
    obtain ⟨z, hz, rfl⟩ := List.mem_map.mp hk
    have : z.epoch ≤ (s.newest i).getD 0 :=
      greatest_ge (List.mem_map_of_mem (List.mem_filter.mpr ⟨hz, beq_iff_eq.mpr slot⟩))
    have same : z.epoch = q.epoch := epoch
    omega
  have added := h.addSnap (x := snapRole (s.loadedSnapshot i v kind q))
    (w := roleOf { v with retained := v.retained + bucketTotal q.buckets }) (volRoles_of found)
    new (Nat.lt_of_not_le below) le_rfl rfl rfl rfl
  have snaps : snapRoles ((s.setCat { s.cat with
      snaps := s.cat.snaps ++ [s.loadedSnapshot i v kind q] }).putVol i
      (some { v with retained := v.retained + bucketTotal q.buckets })) =
      snapRoles s ++ [snapRole (s.loadedSnapshot i v kind q)] := List.map_append ..
  unfold RefsOk
  rw [volRoles_putVol, snaps]
  exact added

/-- A volume whose base is removed (R187). -/
def withoutBase (v : Volume) : Volume := { v with base := none, fullScan := true }

theorem vol_modifyVols {f : Volume → Volume} (idem : ∀ v, f (f v) = f v) (js : List (Fin 8))
    (s : State) (i : Fin 8) : (js.foldl (fun s j => s.modifyVol j f) s).vol i =
      if i ∈ js then (s.vol i).map f else s.vol i := by
  induction js generalizing s with
  | nil => simp
  | cons j js ih =>
    have first : (s.modifyVol j f).vol i = if i = j then (s.vol i).map f else s.vol i := by
      unfold State.modifyVol
      split
      · rename_i none
        split
        · rename_i eq
          rw [eq, none]
          rfl
        · rfl
      · rename_i v found
        split
        · rename_i eq
          rw [eq, vol_putVol_self, found]
          rfl
        · rename_i ne
          rw [vol_putVol_other s ne]
    rw [List.foldl_cons, ih, first]
    by_cases eq : i = j
    · simp only [eq, if_true, List.mem_cons, true_or, Option.map_map, Function.comp_def, idem]
      split <;> rfl
    · simp [eq]

theorem removeBases_vol (s : State) (i : Fin 8) : s.removeBases.vol i =
    if i ∈ s.missingBases then (s.vol i).map withoutBase else s.vol i :=
  vol_modifyVols (f := withoutBase) (fun _ => rfl) _ s i

theorem mem_missingBases : i ∈ s.missingBases ↔
    ∃ v b, s.vol i = some v ∧ v.base = some b ∧ ¬Stands (snapRoles s) i b := by
  have every : ∀ i : Fin 8, i ∈ slots8 := by decide
  unfold State.missingBases
  rw [List.mem_filter]
  simp only [every, true_and]
  cases hv : s.vol i with
  | none => simp
  | some v =>
    unfold State.baseMissing
    cases hb : v.base with
    | none => simp [hb]
    | some b =>
      have : (s.findSnap i b).isNone = true ↔ ¬Stands (snapRoles s) i b := by
        rw [stands_iff]
        cases s.findSnap i b <;> simp
      simpa [hb] using this

/-- The bases that were never loaded are removed; then those left stand (R187). -/
theorem removeBases_refs {serving : Prop} (h : RefsOk s) :
    Refs (sources s) (volRoles s.removeBases) (snapRoles s) serving := by
  have role : ∀ i, volRoles s.removeBases i =
      if i ∈ s.missingBases then (s.vol i).map (roleOf ∘ withoutBase) else volRoles s i := by
    intro i
    rw [volRoles, removeBases_vol]
    split
    · rw [Option.map_map]
    · rfl
  refine h.serve (fun i => ?_) fun i r e hr hb => ?_
  · rw [role]
    split
    · rename_i missing
      obtain ⟨v, b, found, base, gone⟩ := mem_missingBases.mp missing
      refine .inr ⟨roleOf v, volRoles_of found, fun e he => ?_, by rw [found]; rfl⟩
      obtain rfl : b = e := Option.some.inj (base.symm.trans he)
      exact gone
    · exact .inl rfl
  · rw [role] at hr
    split at hr
    · obtain ⟨v, -, rfl⟩ := Option.map_eq_some_iff.mp hr
      cases hb
    · rename_i kept
      obtain ⟨v, found, rfl⟩ := volRoles_some hr
      by_contra gone
      exact kept (mem_missingBases.mpr ⟨v, e, found, hb, gone⟩)

theorem snapRoles_removeBases (s : State) : snapRoles s.removeBases = snapRoles s := by
  have one : ∀ (u : State) (i : Fin 8) (f : Volume → Volume), snapRoles u = snapRoles s →
      snapRoles (u.modifyVol i f) = snapRoles s := by
    intro u i f hu
    unfold State.modifyVol
    split
    · exact hu
    · exact hu
  exact foldl_keeps (P := fun u => snapRoles u = snapRoles s) (fun u i hu => one u i _ hu) _ _ rfl

theorem loadDoneRequest_refs (tag generation : Nat) (s : State) (h : RefsOk s) :
    RefsOk (loadDoneRequest tag generation s) := by
  unfold loadDoneRequest
  refine ite_keeps (fun _ => refs_answer h) fun _ => ?_
  refine foldl_keeps (fun u i hu => evaluate_refs i hu) _ _ ?_
  refine refs_of_changes (by decide) (announceServing_changes _) (refs_answer ?_)
  have linked : RefsOk ((s.setLink { s.link with generation }).seedRng generation) :=
    refs_congr (s := s) rfl rfl rfl rfl h
  have based := removeBases_refs (serving := PartState.serving = .serving) linked
  have only := removeBases_changes ((s.setLink { s.link with generation }).seedRng generation)
  have contexts : sources ((s.setLink { s.link with generation }).seedRng generation).removeBases =
      sources ((s.setLink { s.link with generation }).seedRng generation) := by
    funext c
    rw [sources, context_of_changes (by decide) only, sources]
  rw [← contexts, ← snapRoles_removeBases] at based
  exact based

/-! ### The other requests -/

theorem commitRequest_refs (tag : Nat) (q : CommitReq) (s : State) (h : RefsOk s) :
    RefsOk (commitRequest tag q s) := by
  have finish : ∀ {u st charged used quota}, RefsOk u →
      RefsOk (u.finishCommit tag q st charged used quota) := fun hu =>
    issueIfFreed_refs (refs_answer (appendExtent_refs hu))
  unfold commitRequest
  refine ite_keeps (fun _ => refs_answer h) fun _ => ?_
  split
  · exact refs_answer h
  split
  · unfold commitLate
    split
    · exact finish h
    · dsimp only
      split
      · exact finish (refs_raise h)
      · rename_i made
        exact finish (refs_of_changes (by decide) (usedChanged_changes ..)
          (refs_of_changes (by decide) (touchOwner_changes ..)
            (refs_of_changes (by decide) (ensureOwner_changes _ _ _ made) (refs_raise h))))
  · exact ite_keeps (fun _ => refs_answer h) fun _ => finish
      (refs_of_changes (by decide) (usedChanged_changes ..)
        (refs_of_changes (by decide) (removeEntry_changes ..) h))

theorem releaseRequest_refs (tag : Nat) (q : ReleaseReq) (s : State) (h : RefsOk s) :
    RefsOk (releaseRequest tag q s) := by
  unfold releaseRequest
  refine ite_keeps (fun _ => refs_answer h) fun _ => ?_
  split
  · exact refs_answer h
  refine ite_keeps (fun _ => refs_answer h) fun _ => ?_
  have quota : RefsOk (s.releaseQuota q.owner q.blocks) :=
    refs_of_changes (by decide) (releaseQuota_changes ..) h
  refine issueIfFreed_refs (ite_keeps (fun _ => ?_) fun _ => evaluate_refs _ ?_)
  · exact refs_answer (appendExtent_refs (releaseRetention_refs quota))
  · exact refs_answer (appendExtent_refs (releaseRetention_refs quota))

theorem deleteRequest_refs (tag : Nat) (q : DeleteReq) (s : State) (h : RefsOk s) :
    RefsOk (deleteRequest tag q s) := by
  unfold deleteRequest
  refine ite_keeps (fun _ => refs_answer h) fun _ => ?_
  split
  · exact refs_answer h
  split
  · exact refs_answer h
  rename_i z snap
  refine ite_keeps (fun deletable => refs_answer (deletionStep_refs ?_ h)) fun _ => refs_answer h
  obtain ⟨hz, slot, -⟩ := findSnap_some snap
  simp only [Snapshot.deletable, Bool.and_eq_true, beq_iff_eq] at deletable
  exact ⟨snapRole z, List.mem_map_of_mem hz, slot, rfl, deletable.2⟩

theorem markRequest_refs {kind : Nat} {locked : State → Bool} {read : Snapshot → Bool}
    {write : Snapshot → Bool → Snapshot} (same : ∀ z b, snapRole (write z b) = snapRole z)
    (tag : Nat) (q : MarkReq) (s : State) (h : RefsOk s) :
    RefsOk (markRequest kind locked read write tag q s) := by
  unfold markRequest
  refine ite_keeps (fun _ => refs_answer h) fun _ => ?_
  split
  · exact refs_answer h
  split
  · exact refs_answer h
  refine ite_keeps (fun _ => refs_answer h) fun _ => ite_keeps (fun _ => evaluateIfOver_refs _ ?_)
    fun _ => ?_
  · exact refs_answer (refs_modifySnap (fun z => same z _) h)
  · exact refs_answer (refs_modifySnap (fun z => same z _) h)

theorem lockRequest_refs (tag : Nat) (q : Unit) (s : State) (h : RefsOk s) :
    RefsOk (lockRequest tag q s) :=
  refs_answer (ite_keeps (fun _ => refs_congr (s := s) rfl rfl rfl rfl h) fun _ => h)

theorem openRequest_refs (tag : Nat) (q : OpenReq) (s : State) (h : RefsOk s) :
    RefsOk (openRequest tag q s) := by
  unfold openRequest
  refine ite_keeps (fun _ => refs_answer h) fun _ => ?_
  split
  · rename_i i _ j _ _ _
    refine ite_keeps (fun _ => refs_answer h) fun stands => ?_
    split
    · exact refs_answer h
    · rename_i c free
      refine refs_answer (refs_congr (s := (s.putContext c (some (s.newContext q i j))).takeRef
        i q.epoch) rfl rfl rfl rfl ?_)
      refine openContext_refs (y := s.newContext q i j) (by simpa using List.find?_some free) ?_ h
      rwa [Option.isNone_iff_eq_none, ← ne_eq, ← Option.isSome_iff_ne_none] at stands
  · exact refs_answer h

theorem itemRequest_refs (tag : Nat) (q : ItemReq) (s : State) (h : RefsOk s) :
    RefsOk (itemRequest tag q s) := by
  unfold itemRequest
  refine ite_keeps (fun _ => refs_answer h) fun _ => ?_
  split
  · exact refs_answer h
  rename_i c x job
  have found := findJob_some job
  refine ite_keeps (fun _ => refs_answer h) fun _ => ?_
  split
  · exact evaluateIfOver_refs _ (refs_answer (freeContext_refs found h))
  · exact refs_answer (refs_putContext found rfl h)

theorem startJob_refs {handle : Option Nat} (found : s.context c = some x) (h : RefsOk s) :
    RefsOk (s.startJob c x handle) :=
  refs_of_changes (by decide) (restoreStarts_changes _) (refs_putContext found rfl h)

theorem goRequest_refs (tag : Nat) (q : JobReq) (s : State) (h : RefsOk s) :
    RefsOk (goRequest tag q s) := by
  unfold goRequest
  refine ite_keeps (fun _ => refs_answer h) fun _ => ?_
  split
  · exact refs_answer h
  rename_i c x job
  have found := findJob_some job
  refine ite_keeps (fun _ => refs_answer h) fun _ => ite_keeps (fun _ => ?_) fun _ => ?_
  · exact evaluateIfOver_refs _ (refs_answer (freeContext_refs found h))
  split
  · rename_i cls _
    have only := admit_changes s x.owner cls (x.items.map (·.length)).sum
      (s.volumeId x.targetSlot) (.restore c)
    have admitted := refs_of_changes (by decide) only h
    have here := (congrFun (context_of_changes (by decide) only) c).trans found
    unfold goTracked
    exact ite_keeps (fun _ => placeCopies_refs (refs_answer (startJob_refs here admitted)))
      fun _ => evaluateIfOver_refs _ (refs_answer (freeContext_refs here admitted))
  · exact placeCopies_refs (refs_answer (startJob_refs found h))

theorem cancelJobRequest_refs (tag : Nat) (q : JobReq) (s : State) (h : RefsOk s) :
    RefsOk (cancelJobRequest tag q s) := by
  unfold cancelJobRequest
  refine ite_keeps (fun _ => refs_answer h) fun _ => ?_
  split
  · exact refs_answer h
  rename_i c x job
  have found := findJob_some job
  split
  · exact evaluateIfOver_refs _ (refs_answer (freeContext_refs found h))
  · exact restoreEndStep_refs _ (refs_answer (testJobEnd_refs _ (refs_putContext found rfl h)))
  · exact restoreEndStep_refs _ (refs_answer (testJobEnd_refs _ h))

theorem copiedRequest_refs (tag : Nat) (q : CopiedReq) (s : State) (h : RefsOk s) :
    RefsOk (copiedRequest tag q s) := by
  unfold copiedRequest
  refine ite_keeps (fun _ => refs_answer h) fun _ => ?_
  split
  · exact refs_answer h
  rename_i c x job
  have found := findJob_some job
  split
  · exact refs_answer h
  rename_i item _
  refine ite_keeps (fun _ => refs_answer h) fun _ => issueIfFreed_refs ?_
  have put : ∀ ok, RefsOk (s.putContext c (some (x.answered q.item item ok))) := by
    intro ok
    refine refs_putContext found ?_ h
    unfold Context.answered
    dsimp only
    split <;> rfl
  have copies : ∀ {u p} [Decidable p], RefsOk u → RefsOk (if p then State.placeCopies u else u) :=
    fun hu => ite_keeps (fun _ => placeCopies_refs hu) fun _ => hu
  refine copies (restoreEndStep_refs _ (refs_answer (testJobEnd_refs _ ?_)))
  exact ite_keeps (fun _ => appendCurrent_refs (refs_of_changes (by decide)
    (chargeRestore_changes ..) (put _))) fun _ => put _

theorem answerTicket_refs {k : Fin 16} {a : Ticket} {ok : Bool} (h : RefsOk s) :
    RefsOk (s.answerTicket k a ok) := by
  have freed : RefsOk (s.putTicket k none) := refs_congr (s := s) rfl rfl rfl rfl h
  unfold State.answerTicket
  dsimp only
  split
  · exact refs_congr (s := s.putTicket k none) rfl rfl rfl rfl freed
  · rename_i v found
    have put : ∀ n, RefsOk (((s.putTicket k none).putVol a.slot (some (v.answered a.work ok
        (s.profileOf v).retryLimit))).setPool n) := by
      intro n
      refine refs_congr (s := (s.putTicket k none).putVol a.slot (some (v.answered a.work ok
        (s.profileOf v).retryLimit))) rfl rfl rfl rfl (refs_putVol found ?_ freed)
      unfold Volume.answered
      dsimp only
      split <;> rfl
    exact ite_keeps (fun _ => refs_raise (put _)) fun _ => put _

theorem sentRequest_refs (tag : Nat) (q : SentReq) (s : State) (h : RefsOk s) :
    RefsOk (sentRequest tag q s) := by
  unfold sentRequest
  refine ite_keeps (fun _ => refs_answer h) fun _ => ?_
  split
  · exact refs_answer h
  · exact issuePass_refs (refs_flushEvent (closeIfDone_refs (dupEndStep_refs _ (testEnd_refs
      (refs_answer (answerTicket_refs h))))))

theorem duplicateNowRequest_refs (tag volume : Nat) (s : State) (h : RefsOk s) :
    RefsOk (duplicateNowRequest tag volume s) := by
  unfold duplicateNowRequest
  refine ite_keeps (fun _ => refs_answer h) fun _ => ?_
  split
  · exact refs_answer h
  rename_i i v volume
  refine ite_keeps (fun _ => refs_answer h) fun _ => ite_keeps (fun _ => refs_answer h) fun _ => ?_
  exact placeCuts_refs (refs_answer (refs_putVol (findVol_some volume) rfl h))

theorem afterMinute_refs (h : RefsOk s) : RefsOk s.afterMinute :=
  issuePass_refs (placeCuts_refs (refs_flushEvent h))

theorem clockRequest_refs (tag minute : Nat) (s : State) (h : RefsOk s) :
    RefsOk (clockRequest tag minute s) := by
  unfold clockRequest
  refine ite_keeps (fun _ => refs_answer h) fun _ => ?_
  exact afterMinute_refs (refs_answer (minuteChanged_refs (refs_congr (s := s) rfl rfl rfl rfl h)))

theorem amendRequest_refs (tag : Nat) (q : AmendReq) (s : State) (h : RefsOk s) :
    RefsOk (amendRequest tag q s) := by
  have volume : ∀ f, RefsOk (amendVolume tag q f s) := by
    intro f
    unfold amendVolume
    split
    · refine ite_keeps (fun _ => refs_answer h) fun _ => ?_
      split
      · exact refs_answer h
      rename_i v found
      refine ite_keeps (fun _ => ite_keeps (fun _ => refs_answer h) fun _ => ?_)
        fun _ => refs_answer h
      have same : ∀ (b : Bool) n, roleOf (if b then v.amendWrite n f else v) = roleOf v := by
        intro b n
        cases b
        · rfl
        · cases f
          case reserveLimit => exact roleOf_settle _
          all_goals rfl
      have put := refs_answer (kind := 21) (tag := tag) (st := .ok) (b := .amend)
        (refs_putVol found (same true 0) h)
      refine ite_keeps (fun _ => evaluate_refs _ (refs_answer (refs_putVol found (same _ _) h)))
        fun _ => refs_answer (refs_putVol found (same _ _) h)
    · exact refs_answer h
  have snapshot : RefsOk (amendSnapshot tag q s) := by
    unfold amendSnapshot
    refine ite_keeps (fun _ => refs_answer h) fun _ => ?_
    split
    · exact refs_answer h
    split
    · exact refs_answer h
    · exact ite_keeps (fun _ => refs_answer (refs_modifySnap (fun _ => rfl) h))
        fun _ => refs_answer h
  unfold amendRequest
  refine ite_keeps (fun _ => refs_answer h) fun _ => ?_
  split
  · exact refs_answer h
  · exact refs_of_changes (by decide) (amendOwner_changes ..) h
  · exact refs_of_changes (by decide) (amendOwner_changes ..) h
  · exact snapshot
  · exact volume _

/-! ### Every command -/

theorem enterChecked_refs (h : RefsOk s)
  (notServing : s.part ≠ .serving) : RefsOk s.enterChecked := by
  have entered : ∀ {u : State}, u.cat = s.cat → u.rsc = s.rsc → u.part ≠ .serving → RefsOk u := by
    intro u cat rsc part
    have base : RefsOk s := h
    unfold RefsOk sources volRoles snapRoles State.context State.vol at *
    rw [cat, rsc]
    simp only [notServing, part] at base ⊢
    exact base
  exact ite_keeps (fun _ => entered rfl rfl (show PartState.loading ≠ .serving by decide))
    fun _ => refs_flushEvent (entered rfl rfl (show PartState.halted ≠ .serving by decide))

theorem reset_refs : RefsOk State.reset := by
  have contexts : ∀ c, sources State.reset c = none := by decide
  have volumes : ∀ i, volRoles State.reset i = none := by
    intro i
    have : State.reset.vol i = none := by revert i; decide
    rw [volRoles, this, Option.map_none]
  have snaps : snapRoles State.reset = [] := rfl
  unfold RefsOk
  rw [snaps]
  refine ⟨by simp, fun c i e h => ?_, fun i v e h => ?_, fun i v e h => ?_, by simp, by simp⟩
  · rw [contexts] at h; cases h
  · rw [volumes] at h; cases h
  · rw [volumes] at h; cases h

/-- Every command keeps the references. -/
theorem exec_refs (c : Instr) (s t : State) (h : exec c s = .next t)
  (hs : RefsOk s) : RefsOk t := by
  have port : ∀ s t, ChangesOnly [.port] s t → RefsOk s → RefsOk t :=
    fun _ _ => refs_of_changes (by decide)
  by_cases framed : ∃ l, mayChange c = some l ∧ .cat ∉ l ∧ Block.rsc ∉ l
  · obtain ⟨l, hl, hp⟩ := framed
    exact refs_of_changes hp (exec_changes c hl h) hs
  cases c <;> simp only [exec] at h
  case powerOnReset => cases h; exact refs_congr (s := State.reset) rfl rfl rfl rfl reset_refs
  case rstAsserted => cases h; exact refs_congr (s := s) rfl rfl rfl rfl hs
  case configCheck =>
    refine whenReleased_keeps ?_ h hs
    refine ite_keeps (fun configuring => ?_) fun _ => hs
    have part : s.part ≠ .serving := by rw [configuring]; decide
    dsimp only
    split
    · exact enterChecked_refs (refs_congr (s := s) rfl rfl rfl rfl hs) part
    · exact enterChecked_refs (refs_congr (s := s) rfl rfl rfl rfl hs) part
  case restart =>
    refine request_keeps port (fun tag _ u _ => ?_) h hs
    have fresh : RefsOk u.restarted := refs_congr (s := State.reset) rfl rfl rfl rfl reset_refs
    refine enterChecked_refs (refs_answer fresh) ?_
    rw [(answer_changes ..).1.2.1]
    exact show PartState.configuring ≠ .serving by decide
  case loadDone => exact request_keeps port loadDoneRequest_refs h hs
  case read =>
    refine whenReleased_keeps ?_ h hs
    refine ite_keeps (fun _ => port _ _ (shiftStatus_changes ..) hs) fun _ => ?_
    split
    · exact port _ _ (shiftStatus_changes ..) hs
    · have removed : ∀ q, RefsOk (s.setPort q) := fun _ => refs_congr (s := s) rfl rfl rfl rfl hs
      exact ite_keeps (fun _ => ite_keeps (fun _ => roomArrives_refs (removed _))
        fun _ => removed _) fun _ => port _ _ (shiftStatus_changes ..) hs
  case commit => exact request_keeps port commitRequest_refs h hs
  case release => exact request_keeps port releaseRequest_refs h hs
  case snapshot => exact request_keeps port snapshotRequest_refs h hs
  case deleteSnapshot => exact request_keeps port deleteRequest_refs h hs
  case expiryWaitingEvaluation => exact whenReleased_keeps (evaluateWaiting_refs hs) h hs
  case hold =>
    refine request_keeps port ?_ h hs
    exact markRequest_refs fun _ _ => rfl
  case pin =>
    refine request_keeps port ?_ h hs
    exact markRequest_refs fun _ _ => rfl
  case lockHolds => exact request_keeps port lockRequest_refs h hs
  case restoreOpen => exact request_keeps port openRequest_refs h hs
  case restoreItem => exact request_keeps port itemRequest_refs h hs
  case restoreGo => exact request_keeps port goRequest_refs h hs
  case restoreCancel => exact request_keeps port cancelJobRequest_refs h hs
  case copied => exact request_keeps port copiedRequest_refs h hs
  case copyNotice => exact whenReleased_keeps (placeCopies_refs hs) h hs
  case assemblyDeadline =>
    exact whenReleased_keeps (refs_modifyContext (fun x => by split <;> rfl) hs) h hs
  case assemblyTimeout => exact whenReleased_keeps (assemblyTimeout_refs _ hs) h hs
  case restoreEndStep => exact whenReleased_keeps (restoreEndStep_refs _ hs) h hs
  case sent => exact request_keeps port sentRequest_refs h hs
  case duplicateNow => exact request_keeps port duplicateNowRequest_refs h hs
  case clock => exact request_keeps port clockRequest_refs h hs
  case minuteAdvance =>
    refine whenReleased_keeps ?_ h hs
    split
    · exact ite_keeps (fun _ => afterMinute_refs (minuteChanged_refs
        (refs_congr (s := s) rfl rfl rfl rfl hs))) fun _ => hs
    · exact hs
  case windowClosed =>
    refine whenReleased_keeps ?_ h hs
    exact refs_flushEvent (closeIfDone_refs hs)
  case cutNotice => exact whenReleased_keeps (placeCuts_refs hs) h hs
  case cutTimeout =>
    refine whenReleased_keeps ?_ h hs
    split
    · exact hs
    · rename_i found
      exact ite_keeps (fun _ => refs_flushEvent (refs_raise (refs_putVol found rfl hs))) fun _ => hs
  case issuePass => exact whenReleased_keeps (issuePass_refs hs) h hs
  case tokenGain =>
    refine whenReleased_keeps ?_ h hs
    exact ite_keeps (fun _ => issuePass_refs (refs_congr (s := s) rfl rfl rfl rfl hs)) fun _ => hs
  case dupEndStep => exact whenReleased_keeps (dupEndStep_refs _ hs) h hs
  case amend => exact request_keeps port amendRequest_refs h hs
  case loadVolume =>
    refine request_keeps_served port (fun tag q u served hu => ?_) h hs
    refine loadVolumeRequest_refs tag q u (fun part => ?_) hu
    rw [part] at served
    exact absurd served (by decide)
  case loadSnapshot => exact request_keeps port loadSnapshotRequest_refs h hs
  case announceTimerExpiry =>
    refine whenReleased_keeps ?_ h hs
    split
    · exact hs
    · refine ite_keeps (fun _ => ?_) fun _ => hs
      refine refs_of_changes (by decide) (announceSlots_changes _) (issuePass_refs (refs_flushEvent
        (testAtRisk_refs (refs_of_changes (by decide) (recomputeShare_changes _) ?_))))
      exact refs_congr (s := s) rfl rfl rfl rfl hs
  all_goals exact absurd ⟨_, rfl, by decide⟩ framed

theorem step_referencesCounted (h : step s = .next t) (retained : RetainedCounted s)
    (hs : ReferencesCounted s) : ReferencesCounted t := by
  refine counted_of_refsOk (step_keeps (fun _ _ hs => hs) (fun s hs => ?_) exec_refs h
    (refsOk_of_counted retained hs))
  unfold State.tick
  exact ite_keeps (fun _ => hs) fun _ => refs_congr (s := s) rfl rfl rfl rfl hs

/-- Settles O59: the ledger without and with its figures, and the references of the snapshots, each
kept by every command. -/
theorem stepKeepsReservationsAndReferences : Obligations.StepKeepsReservationsAndReferences :=
  fun _ _ h => ⟨step_reservationTableOk h, step_reservedCounted h, step_referencesCounted h⟩

end Sys2Proof.Proofs

/-! PROOFS. The state right after reset: the values of the blocks (settles O5) and the invariants
(settles O60). -/

namespace Sys2Proof.Proofs

open Sys2Proof.Machine Sys2Proof.Safety

theorem reset_vol (i : Fin 8) : State.reset.vol i = none := by revert i; decide

theorem reset_context (c : Fin 4) : State.reset.context c = none := by revert c; decide

theorem reset_ticket (k : Fin 16) : State.reset.ticket k = none := by revert k; decide

theorem reset_peer (i : Fin 16) : State.reset.peer i = Peer.reset := by revert i; decide

theorem reset_events (k : Fin 15) :
    State.reset.port.events[k] = { flag := false, count := 0, subject := 0 } := by revert k; decide

/-- Settles O5: a power-on reset is the reset state with the straps and the waiting commands. -/
theorem powerOnResetLeavesEveryBlockAtItsResetValues :
    Obligations.PowerOnResetLeavesEveryBlockAtItsResetValues := by
  intro station maint s
  exact ⟨_, rfl, rfl, rfl, rfl, rfl, rfl, rfl, rfl, rfl, rfl, rfl, rfl, rfl, rfl, reset_events, rfl,
    rfl, rfl, rfl, rfl, rfl, rfl, rfl, rfl, rfl, rfl, rfl, rfl, rfl, reset_peer, reset_vol, rfl,
      rfl,
    rfl, reset_context, rfl, rfl, rfl, reset_ticket, rfl, rfl, rfl, rfl, rfl, rfl, rfl⟩

theorem reset_ordered : OwnersOrdered State.reset := ownersOrdered_nil rfl

theorem reset_modesAgree : ModesAgree State.reset := by decide

theorem reset_runningCounted : RunningCounted State.reset :=
  ⟨by decide, fun c x hx => absurd hx (reset_context c ▸ Option.not_mem_none x)⟩

theorem reset_retainedCounted : RetainedCounted State.reset :=
  ⟨fun i v hv => absurd hv (reset_vol i ▸ Option.not_mem_none v), fun _ _ => rfl,
    List.Pairwise.nil⟩

theorem reset_poolConserved : PoolConserved State.reset := by
  have noVol : ∀ i v, v ∉ State.reset.vol i := fun i v => reset_vol i ▸ Option.not_mem_none v
  have noTicket : ∀ k x, x ∉ State.reset.ticket k := fun k x =>
    reset_ticket k ▸ Option.not_mem_none x
  exact ⟨by decide, fun i v hv => absurd hv (noVol i v), fun k x hx => absurd hx (noTicket k x),
    fun g hg => absurd hg (Option.not_mem_none g), by decide, by decide,
    fun _ i v hv => absurd hv (noVol i v)⟩

/-- Settles O60: every table is empty, every count 0. -/
theorem resetSatisfiesTheInvariants : Obligations.ResetSatisfiesTheInvariants :=
  have ledger : Ledger True State.reset := reset_ledger
  ⟨by decide, reset_ordered, reset_modesAgree, by decide, by decide, reset_runningCounted,
    reset_retainedCounted, reset_poolConserved, ledger.1,
    (reservedCounted_iff reset_ordered).mpr (ledger.2 trivial), counted_of_refsOk reset_refs⟩

end Sys2Proof.Proofs

/-! PROOFS. What a request that is taken leaves, and what the figures of an owner and the records of
a volume are read from. -/

namespace Sys2Proof.Proofs

open Sys2Proof.Machine Sys2Proof.Safety

variable {l : List Block} {s t u w : State} {o : Owner} {id : OwnerId} {i j : Fin 8} {v : Volume}

/-! ### Answers -/

/-- A step that places nothing, an answer, and notices behind it. -/
theorem answered_of_quiet {kind tag : Nat} {st : Status} {b : Body} (q : Quiet s.dropHead w)
    (h : Grows (w.answer kind tag st b) t) : Answered s t (reply kind tag st b) := by
  obtain ⟨requests, completions⟩ := q
  obtain ⟨grown, -, -, more, placed, notices⟩ := (answer_grows w kind tag st b).trans h
  refine ⟨grown.trans requests, more, placed.trans ?_, notices⟩
  rw [show (w.place (reply kind tag st b)).port.completions =
    w.port.completions ++ [reply kind tag st b] from rfl, completions, List.append_assoc]
  rfl

/-- An answer alone. -/
theorem answered_alone {kind tag : Nat} {st : Status} {b : Body} (q : Quiet s.dropHead w) :
    Answered s (w.answer kind tag st b) (reply kind tag st b) := answered_of_quiet q (.refl _)

/-- A refusal changes nothing but the port. -/
theorem refused_changes {kind tag : Nat} {st : Status} {b : Body} :
    ChangesOnly [.port] s (s.dropHead.answer kind tag st b) :=
  (dropHead_changes s).trans (answer_changes ..)

/-! ### The figures of an owner -/

/-- What the figures of an owner read beside its record. -/
def SameFigures (s t : State) : Prop :=
  t.image = s.image ∧ t.time = s.time ∧ t.link.peers = s.link.peers

theorem SameFigures.of_changes (hp : .time ∉ l ∧ .link ∉ l) (h : ChangesOnly l s t) :
    SameFigures s t :=
  ⟨h.1.2.2.2.2.1, h.2 .time hp.1, congrArg Link.peers (h.2 .link hp.2)⟩

theorem SameFigures.trans (h : SameFigures s t) (k : SameFigures t u) : SameFigures s u :=
  ⟨k.1.trans h.1, k.2.1.trans h.2.1, k.2.2.trans h.2.2⟩

theorem SameFigures.passed (h : SameFigures s t) (d : Option Nat) : t.passed d = s.passed d := by
  cases d with
  | none => rfl
  | some d =>
    unfold State.passed State.now
    rw [h.2.1]

theorem SameFigures.stale (h : SameFigures s t) : t.stale = s.stale := by
  funext c
  simp only [State.stale, State.peer, h.2.2]

theorem SameFigures.classRec (h : SameFigures s t) (c : Fin 8) : t.classRec c = s.classRec c := by
  simp only [State.classRec, State.cfg, h.1]

theorem SameFigures.baseLimits (h : SameFigures s t) (o : Owner) :
    t.baseLimits o = s.baseLimits o := by
  unfold State.baseLimits
  split
  · rfl
  · rw [h.classRec]

theorem SameFigures.effectiveLimits (h : SameFigures s t) (o : Owner) :
    t.effectiveLimits o = s.effectiveLimits o := by
  have incomplete : t.incomplete o = s.incomplete o := by
    unfold State.incomplete State.warming
    rw [h.passed, h.stale]
  unfold State.effectiveLimits
  rw [incomplete, h.baseLimits, h.classRec]

theorem SameFigures.quotaState (h : SameFigures s t) (o : Owner) :
    t.quotaState o = s.quotaState o := by
  unfold State.quotaState
  rw [h.effectiveLimits, h.passed]

theorem SameFigures.reevaluate (h : SameFigures s t) (o : Owner) :
    t.reevaluate o = s.reevaluate o := by
  unfold State.reevaluate
  rw [h.effectiveLimits, h.classRec, State.now, State.now, h.2.1]

theorem quotaOf_of_found (h : s.findOwner id = some o) : s.quotaOf id = s.quotaState o := by
  rw [State.quotaOf, h]
  rfl

theorem findOwner_congr (h : t.owners = s.owners) (id : OwnerId) :
    t.findOwner id = s.findOwner id := by
  simp only [State.findOwner, h]

theorem findOwner_of_changes (hp : Block.owners ∉ l) (h : ChangesOnly l s t) (id : OwnerId) :
    t.findOwner id = s.findOwner id := findOwner_congr (h.2 .owners hp) id

theorem vol_of_changes (hp : Block.cat ∉ l) (h : ChangesOnly l s t) (i : Fin 8) :
    t.vol i = s.vol i := by
  have cat : t.cat = s.cat := h.2 .cat hp
  simp only [State.vol, cat]

/-! ### What the evaluation of a volume leaves -/

/-- A volume record without what the evaluation writes (R70, R78, R82). -/
def lasting (v : Volume) : Volume :=
  { v with retained := 0, overReported := false, expiryWaiting := false }

theorem lasting_fields {w : Volume} (h : lasting w = lasting v) :
    w.id = v.id ∧ w.size = v.size ∧ w.base = v.base ∧ w.fullScan = v.fullScan := by
  have ofId := congrArg Volume.id h
  have ofSize := congrArg Volume.size h
  have ofBase := congrArg Volume.base h
  have ofScan := congrArg Volume.fullScan h
  exact ⟨ofId, ofSize, ofBase, ofScan⟩

@[simp] theorem lasting_settle (v : Volume) : lasting v.settle = lasting v := by
  unfold Volume.settle
  split <;> rfl

/-- The lasting part of the record in each slot. -/
def lastingVols (s : State) (j : Fin 8) : Option Volume := (s.vol j).map lasting

theorem lastingVols_putVol {w : Volume} (found : s.vol i = some v) (same : lasting w = lasting v) :
    lastingVols (s.putVol i (some w)) = lastingVols s := by
  funext j
  unfold lastingVols
  by_cases h : j = i
  · rw [h, vol_putVol_self, found, Option.map_some, Option.map_some, same]
  · rw [vol_putVol_other s h]

/-- What the writes of volume records that keep their lasting part, the changes of the snapshots and
the port all keep, the evaluation of a volume keeps. -/
theorem evaluate_keeps {P : State → Prop}
    (put : ∀ u i v w, u.vol i = some v → lasting w = lasting v → P u → P (u.putVol i (some w)))
    (snaps : ∀ u zs, P u → P (u.setCat { u.cat with snaps := zs }))
    (port : ∀ u t, ChangesOnly [.port] u t → P u → P t) (i : Fin 8) (s : State) (h : P s) :
    P (s.evaluate i) := by
  have retained : ∀ (u : State) r n (b : Bucket), P u → P (u.retainBlocks i r n b) := by
    intro u r n b hu
    unfold State.retainBlocks
    split
    · exact hu
    · exact ite_keeps (fun _ => port _ _ (raise_changes ..) (snaps _ _ hu)) fun _ => snaps _ _ hu
  have settled : ∀ freed (w : Volume),
      lasting { w with retained := w.retained - freed }.settle = lasting w :=
    fun _ _ => lasting_settle _
  have deleted : ∀ (u : State) v z, P u → P (u.deletionStep i v z).2 := by
    intro u v z hu
    have moved : ∀ (kept : List Bucket) r, P (kept.foldl
      (fun s b => s.retainBlocks i r v.id b) u) :=
      fun kept r => foldl_keeps (fun u b hu => retained u r v.id b hu) kept u hu
    unfold State.deletionStep State.modifyVol
    dsimp only
    split
    · exact snaps _ _ (moved _ _)
    · rename_i found
      exact put _ _ _ _ found (settled _ _) (snaps _ _ (moved _ _))
  unfold State.evaluate
  generalize s.cat.snaps.length + 1 = rounds
  induction rounds generalizing s with
  | zero => exact h
  | succ rounds ih =>
    unfold evaluateRounds
    split
    · exact h
    rename_i v found
    refine ite_keeps (fun _ => put _ _ _ _ found (by rfl) h) fun _ => ?_
    split
    · refine ite_keeps (fun _ => put _ _ _ _ found (by rfl) h) fun _ => ?_
      exact port _ _ ((raise_changes ..).trans (flushEvent_changes _))
        (put _ _ _ _ found (by rfl) h)
    · exact ite_keeps (fun _ => ih _ (port _ _ ((notice_changes ..).trans (flushEvent_changes _))
        (deleted _ _ _ h))) fun _ => put _ _ _ _ found (by rfl) h

theorem lastingVols_evaluate (s : State) (i : Fin 8) :
    lastingVols (s.evaluate i) = lastingVols s := by
  refine evaluate_keeps (P := fun u => lastingVols u = lastingVols s) ?_ ?_ ?_ i s rfl
  · exact fun u i v w found same hu => (lastingVols_putVol found same).trans hu
  · exact fun u zs hu => hu
  · intro u t only hu
    refine Eq.trans ?_ hu
    funext j
    rw [lastingVols, vol_of_changes (by decide) only, lastingVols]

/-- The hold lock with its cause and mark. -/
def lockOf (s : State) : HoldLock × LockCause × Bool :=
  (s.cat.lock, s.cat.lockCause, s.cat.lockClosedSince)

theorem lockOf_evaluate (s : State) (i : Fin 8) : lockOf (s.evaluate i) = lockOf s := by
  refine evaluate_keeps (P := fun u => lockOf u = lockOf s) ?_ ?_ ?_ i s rfl
  · exact fun u i v w found same hu => hu
  · exact fun u zs hu => hu
  · intro u t only hu
    have cat : t.cat = u.cat := only.2 .cat (by decide)
    rw [← hu, lockOf, lockOf, cat]

/-- The record that an evaluation leaves. -/
theorem evaluate_vol (found : s.vol j = some v) (i : Fin 8) :
    ∃ w, (s.evaluate i).vol j = some w ∧ lasting w = lasting v := by
  have := congrFun (lastingVols_evaluate s i) j
  rw [lastingVols, lastingVols, found, Option.map_some] at this
  exact Option.map_eq_some_iff.mp this

/-- A volume within its limit only loses the mark of a waiting expiry (R82). -/
theorem evaluate_within (found : s.vol i = some v) (within : v.overLimit = false) :
    s.evaluate i = s.putVol i (some { v with expiryWaiting := false }) := by
  unfold State.evaluate evaluateRounds
  rw [found]
  dsimp only
  rw [if_pos (by rw [within]; rfl)]

end Sys2Proof.Proofs

/-! PROOFS. AMEND under its mask (R18, R85, R172, R173): settles O46. -/

namespace Sys2Proof.Proofs

open Sys2Proof.Machine Sys2Proof.Safety

variable {s t : State} {o : Owner} {i : Fin 8} {v : Volume} {tag : Nat} {q : AmendReq} {soft : Bool}

/-! ### The owner's override -/

theorem amendOwner_mismatch (valid : invalidOwner (BitVec.ofNat 32 q.key) = false)
    (key : q.key ≤ 4294967295) (found : s.findOwner (BitVec.ofNat 32 q.key) = some o)
    (fails : q.conditionHolds (BitVec.ofNat 32 (overrideValue soft o.override)) = false) :
    amendOwner tag q soft s = s.answer 21 tag .mismatch (.amend) := by
  unfold amendOwner
  dsimp only
  rw [if_neg (by simp [valid, key]), found]
  dsimp only
  rw [if_neg (by simp [fails])]
  rfl

/-- An override amended: the record touched if the override changes. -/
theorem amendOwner_ok (valid : invalidOwner (BitVec.ofNat 32 q.key) = false)
    (key : q.key ≤ 4294967295) (found : s.findOwner (BitVec.ofNat 32 q.key) = some o)
    (holds : q.conditionHolds (BitVec.ofNat 32 (overrideValue soft o.override)) = true)
    {next : Option Limits} (amended : s.amendedOverride q soft o = next) :
    amendOwner tag q soft s =
      let w := if next = o.override then s
        else s.touchOwner (BitVec.ofNat 32 q.key) fun o => { o with override := next }
      w.answer 21 tag .ok (.amend (overrideValue soft o.override) (overrideValue soft next)
        (decide (next ≠ o.override)) (quota := w.quotaOf (BitVec.ofNat 32 q.key))) := by
  unfold amendOwner
  dsimp only
  rw [if_neg (by simp [valid, key]), found]
  dsimp only
  rw [if_pos holds, amended]
  by_cases same : next = o.override
  · simp [same]
  · have change : (next != o.override) = true := by simpa using same
    simp [change, same]

/-- The soft override that SET leaves beside an absent one is joined by the class's hard limit
(R18). -/
theorem amendedOverride_soft (set : q.action = 0) :
    s.amendedOverride q true o = some
      { soft := (q.merged (BitVec.ofNat 32 (overrideValue true o.override))).toNat
        hard := (o.override.map (·.hard)).getD (s.classRec o.cls).hard } := by
  unfold State.amendedOverride
  rw [if_neg (by simp [AmendReq.removes, set])]
  unfold setOverride
  cases o.override <;> rfl

theorem overrideValue_soft (l : Option Limits) : overrideValue true l = (l.map
  (·.soft)).getD 4294967295 := by
  cases l <;> rfl

theorem amendRequest_owner (table : q.table = 1) (field : q.field = 0) (condition : q.condition ≤ 4)
    (set : q.action = 0) : amendRequest tag q s = amendOwner tag q true s := by
  unfold amendRequest
  rw [if_neg (by omega), table, field]
  rfl

/-! ### The reserve limit -/

theorem amendRequest_limit (table : q.table = 4) (field : q.field = 2) (condition : q.condition ≤ 4)
    (set : q.action = 0) : amendRequest tag q s = amendVolume tag q .reserveLimit s := by
  unfold amendRequest
  rw [if_neg (by omega), table, field]
  rfl

theorem amendVolume_mismatch (key : q.key = i.val) (set : q.action = 0) (found : s.vol i = some v)
    (fails : q.conditionHolds (BitVec.ofNat 32 v.limit) = false) :
    amendVolume tag q .reserveLimit s = s.answer 21 tag .mismatch (.amend) := by
  unfold amendVolume
  rw [dif_pos (key ▸ i.isLt), if_neg (by simp [AmendReq.removes, set])]
  have slot : (⟨q.key, key ▸ i.isLt⟩ : Fin 8) = i := Fin.ext key
  simp only [slot, found, Volume.amendValue, fails]
  rfl

/-- The record that a reserve limit is written to, R70 applied to it if it changes (R85). -/
def limited (v : Volume) (limit : Nat) : Volume :=
  if limit = v.limit then v else { v with limit }.settle

theorem amendVolume_ok (key : q.key = i.val) (set : q.action = 0) (found : s.vol i = some v)
    (holds : q.conditionHolds (BitVec.ofNat 32 v.limit) = true) {limit : Nat}
    (merged : (q.merged (BitVec.ofNat 32 v.limit)).toNat = limit) :
    amendVolume tag q .reserveLimit s =
      let w := (s.putVol i (some (limited v limit))).answer 21 tag .ok
        (.amend v.limit limit (decide (limit ≠ v.limit)) (overLimit := (limited v limit).overLimit))
      if limit = v.limit then w else w.evaluate i := by
  unfold amendVolume
  rw [dif_pos (key ▸ i.isLt), if_neg (by simp [AmendReq.removes, set])]
  have slot : (⟨q.key, key ▸ i.isLt⟩ : Fin 8) = i := Fin.ext key
  simp only [slot, found, Volume.amendValue, holds, merged, AmendField.isEnable]
  unfold limited
  by_cases same : limit = v.limit
  · simp [same]
  · have change : (limit != v.limit) = true := by simpa using same
    simp [change, same, Volume.amendWrite]

theorem limited_fields (v : Volume) (limit : Nat) :
    (limited v limit).limit = limit ∧ (limited v limit).retained = v.retained := by
  unfold limited
  split
  · rename_i same
    exact ⟨same.symm, rfl⟩
  · unfold Volume.settle
    split <;> exact ⟨rfl, rfl⟩

theorem limited_overLimit (v : Volume) (limit : Nat) :
    (limited v limit).overLimit = decide (limit ≠ 4294967295 ∧ limit < v.retained) := by
  obtain ⟨ofLimit, ofRetained⟩ := limited_fields v limit
  unfold Volume.overLimit
  rw [ofLimit, ofRetained, Bool.eq_iff_iff]
  simp

/-- The record that AMEND of a reserve limit leaves (R85). -/
theorem limit_written (limit : Nat) (written : s.vol i = some (limited v limit)) :
    ∃ w, (if limit = v.limit then s else s.evaluate i).vol i = some w ∧ w.limit = limit ∧
      (decide (limit ≠ 4294967295 ∧ limit < v.retained) = false → w.retained = v.retained) := by
  obtain ⟨ofLimit, ofRetained⟩ := limited_fields v limit
  split
  · exact ⟨_, written, ofLimit, fun _ => ofRetained⟩
  · obtain ⟨w, found, same⟩ := evaluate_vol written i
    refine ⟨w, found, (congrArg Volume.limit same).trans ofLimit, fun within => ?_⟩
    rw [evaluate_within written (limited_overLimit v limit ▸ within), vol_putVol_self] at found
    rw [← Option.some.inj found]
    exact ofRetained

/-- Settles O46. -/
theorem amendWritesUnderItsMask : Obligations.AmendWritesUnderItsMask := by
  intro s r q takes parsed condition set
  have run : exec .amend s = .next (amendRequest (recordTag r) q s.dropHead) :=
    whenReleased_taken takes parsed
  constructor
  · intro o table field key valid found old new limits p
    have found' : s.dropHead.findOwner (BitVec.ofNat 32 q.key) = some o := found
    have ofOld : overrideValue true o.override = old := overrideValue_soft _
    rw [amendRequest_owner table field condition set] at run
    constructor
    · intro fails
      rw [amendOwner_mismatch valid key found' (ofOld ▸ fails)] at run
      exact ⟨_, run, refused_changes, answered_alone (.refl _)⟩
    · intro holds
      have amended : s.dropHead.amendedOverride q true o = some limits := by
        rw [amendedOverride_soft set, ofOld]
        rfl
      rw [amendOwner_ok valid key found' (ofOld ▸ holds) amended, ofOld] at run
      refine ⟨_, run, ?_⟩
      by_cases same : some limits = o.override
      · have stays : p = o := if_pos same
        simp only [if_pos same, stays, quotaOf_of_found found']
        have answered := answer_changes s.dropHead 21 (recordTag r) .ok
          (.amend old new (decide (some limits ≠ o.override)) (s.quotaState o) false)
        refine ⟨?_, fun x _ => ?_, (dropHead_changes s).mono (by decide) |>.trans
          (answered.mono (by decide)), answered_alone (.refl _)⟩
        · exact (findOwner_of_changes (by decide) answered _).trans found
        · exact findOwner_of_changes (by decide) answered x
      · have writes : p = s.reevaluate { o with override := some limits } := if_neg same
        simp only [if_neg same, writes]
        have touched := findOwner_touchOwner s.dropHead (f := fun o =>
          { o with override := some limits })
          found' rfl
        have others := touchOwner_othersKept s.dropHead (id := BitVec.ofNat 32 q.key)
          (f := fun o => { o with override := some limits }) fun _ => rfl
        have changes := touchOwner_changes s.dropHead (BitVec.ofNat 32 q.key)
          fun o => { o with override := some limits }
        have figures := (SameFigures.of_changes (by decide) (dropHead_changes s)).trans
          (.of_changes (by decide) changes)
        rw [quotaOf_of_found touched, figures.quotaState]
        have answered := fun b => answer_changes (s.dropHead.touchOwner (BitVec.ofNat 32 q.key)
          fun o => { o with override := some limits }) 21 (recordTag r) .ok b
        refine ⟨?_, fun x hx => ?_, ((dropHead_changes s).mono (by decide)).trans
          ((changes.mono (by decide)).trans ((answered _).mono (by decide))),
          answered_alone (.of_changes changes (by decide))⟩
        · exact (findOwner_of_changes (by decide) (answered _) _).trans touched
        · exact (findOwner_of_changes (by decide) (answered _) x).trans
            (others x hx)
  · intro i v table field key found old new above
    have found' : s.dropHead.vol i = some v := found
    rw [amendRequest_limit table field condition set] at run
    constructor
    · intro fails
      rw [amendVolume_mismatch key set found' fails] at run
      exact ⟨_, run, refused_changes, answered_alone (.refl _)⟩
    · intro holds
      rw [amendVolume_ok key set found' holds (limit := new) rfl, limited_overLimit] at run
      generalize hb : Body.amend v.limit new (decide (new ≠ v.limit)) .normal above = b
      have written : ((s.dropHead.putVol i (some (limited v new))).answer 21
        (recordTag r) .ok b).vol i
          = some (limited v new) :=
        (vol_of_changes (by decide) (answer_changes ..) i).trans (vol_putVol_self ..)
      obtain ⟨w, found, limit, retained⟩ := limit_written new written
      refine ⟨_, w, run.trans (by rw [hb]), found, limit, ?_, fun below => retained ?_, ?_⟩
      · have answered : ChangesOnly [.cat, .port] s
            ((s.dropHead.putVol i (some (limited v new))).answer 21 (recordTag r) .ok b) :=
          andThen (by decide) (andThen (by decide) (within (by decide) (dropHead_changes s))
            (putVol_changes ..)) (answer_changes ..)
        exact .ite (fun _ => answered) fun _ => andThen (by decide) answered (evaluate_changes ..)
      · rw [← below]
      · refine answered_of_quiet (w := s.dropHead.putVol i (some (limited v new))) ⟨rfl, rfl⟩ ?_
        exact .ite (fun _ => .refl _) fun _ => evaluate_grows ..

end Sys2Proof.Proofs

/-! PROOFS. The reload requests (R22, R86, R87, R138, R144, R184 to R186): settles O50. -/

namespace Sys2Proof.Proofs

open Sys2Proof.Machine Sys2Proof.Safety

variable {s t : State} {o : Owner} {i : Fin 8} {v : Volume} {tag : Nat} {cls : Fin 8}

/-- The first element that satisfies p, in a list that ascends. -/
theorem find?_first {n : Nat} {xs : List (Fin n)} {p : Fin n → Bool} {i : Fin n}
    (asc : xs.Pairwise (· < ·)) (mem : i ∈ xs) (here : p i = true) (below : ∀ j < i, p j = false) :
    xs.find? p = some i := by
  induction xs with
  | nil => cases mem
  | cons x xs ih =>
    obtain ⟨hx, hxs⟩ := List.pairwise_cons.mp asc
    rcases List.mem_cons.mp mem with rfl | mem
    · rw [List.find?_cons_of_pos here]
    · rw [List.find?_cons_of_neg (by simp [below x (hx i mem)]), ih hxs mem]

theorem mem_slots8 (i : Fin 8) : i ∈ slots8 := by revert i; decide

theorem loadVolumeRequest_ok {q : LoadVolumeReq} (fields : q.fieldsOk = true)
    (new : s.findVol q.volume = none) (free : s.vol i = none)
    (lowest : ∀ j < i, (s.vol j).isSome = true) :
    loadVolumeRequest tag q s = (s.putVol i (some q.record)).answer 24 tag .ok
      (.loadVolume i.val) := by
  have slot : slots8.find? (fun i => (s.vol i).isNone) = some i := by
    refine find?_first (by decide) (mem_slots8 i) (by simp [free]) fun j hj => ?_
    obtain ⟨x, hx⟩ := Option.isSome_iff_exists.mp (lowest j hj)
    rw [hx]
    rfl
  unfold loadVolumeRequest
  rw [if_neg (by simp [fields, new]), slot]

theorem loadVolume_fieldsOk {q : LoadVolumeReq} (volume : q.volume ≠ 0) (size : q.size ≠ 0)
    (opened : q.openEpoch ≠ 0) (profile : q.profile ≤ 3) (auto : q.autoExpire ≤ 1)
    (dup : q.dupEnable ≤ 1)
    (base : q.basePresent = 0 ∨ q.basePresent = 1 ∧ q.base ≠ 0 ∧ q.base < q.openEpoch) :
    q.fieldsOk = true := by
  have present : q.basePresent ≤ 1 := by omega
  simp only [LoadVolumeReq.fieldsOk, bne_iff_ne, Bool.and_eq_true, Bool.or_eq_true, beq_iff_eq,
    decide_eq_true_eq]
  refine ⟨⟨⟨⟨⟨⟨⟨volume, size⟩, opened⟩, profile⟩, auto⟩, dup⟩, present⟩, ?_⟩
  rcases base with absent | ⟨-, rest⟩
  · exact .inl absent
  · exact .inr rest

theorem loadSnapshotRequest_ok {q : LoadSnapshotReq} {kind : SnapKind} (ofKind : q.kind = some kind)
    (volume : q.volume ≠ 0) (epoch : q.epoch ≠ 0) (found : s.findVol q.volume = some (i, v))
    (below : q.epoch < v.openEpoch) (newest : ∀ n, s.newest i = some n → n < q.epoch)
    (list : loadListOk q.epoch v.retained q.buckets = true) (room : s.cat.snaps.length < 256) :
    loadSnapshotRequest tag q s =
      ((s.setCat { s.cat with snaps := s.cat.snaps ++ [s.loadedSnapshot i v kind q] }).putVol i
        (some { v with retained := v.retained + bucketTotal q.buckets })).answer 25 tag .ok
        (.loadSnapshot (v.retained + bucketTotal q.buckets)) := by
  have newer : (s.newest i).getD 0 < q.epoch := by
    match h : s.newest i with
    | none => simpa using Nat.pos_of_ne_zero epoch
    | some n => exact newest n h
  unfold loadSnapshotRequest
  rw [ofKind]
  dsimp only
  rw [if_neg (by simp [volume, epoch]), found]
  dsimp only
  rw [if_neg (by simp [list, below, newer]), if_neg (by simpa [Config.snapshotSlots] using room)]

theorem loadOwnerRequest_ok {q : LoadOwnerReq} {w : State} (valid : invalidOwner q.owner = false)
    (present : q.overridePresent ≤ 1) (tracked : s.classOf q.owner = some cls)
    (loaded : s.loadOwner q cls = some w) (found : w.findOwner q.owner = some o) :
    loadOwnerRequest tag q s = w.answer 26 tag .ok (.loadOwner o.cls.val w.owners.length) := by
  unfold loadOwnerRequest
  rw [if_neg (by simp [valid, present]), tracked]
  dsimp only
  rw [loaded]
  dsimp only
  rw [found]
  rfl

@[simp] theorem reevaluate_cls (s : State) (o : Owner) : (s.reevaluate o).cls = o.cls := by
  unfold State.reevaluate
  split
  · split <;> rfl
  · rfl

theorem length_putOwner_of_new (new : s.findOwner o.id = none) :
    (putOwner o s.owners).length = s.owners.length + 1 := by
  rw [putOwner_eq]
  exact length_putBy_of_new fun y hy eq => findOwner_none_iff.mp new y hy (BitVec.eq_of_toNat_eq eq)

/-- What LOAD_OWNER answers, and what stands behind it. -/
theorem loadOwner_answered {w : State} {r : Bytes}
    (run : exec .loadOwner s = .next (w.answer 26 (recordTag r) .ok
      (.loadOwner o.cls.val w.owners.length)))
    (changes : ChangesOnly [.owners] s.dropHead w) {n : Nat} (cls : o.cls.val = n) :
    ∃ t, exec .loadOwner s = .next t ∧ t.owners = w.owners ∧ ChangesOnly [.owners, .port] s t ∧
      Answered s t (reply 26 (recordTag r) .ok (.loadOwner n t.owners.length)) := by
  have answered := answer_changes w 26 (recordTag r) .ok (.loadOwner o.cls.val w.owners.length)
  have owners := answered.2 .owners (by decide)
  change _ = _ at owners
  refine ⟨_, run, owners, andThen (by decide) (andThen (by decide) (within (by decide)
    (dropHead_changes s)) changes) answered, ?_⟩
  rw [owners, ← cls]
  exact answered_alone (.of_changes changes (by decide))

/-- Settles O50. -/
theorem reloadMakesItsRecords : Obligations.ReloadMakesItsRecords := by
  intro s r
  refine ⟨?_, ?_, ?_⟩
  · intro q i takes parsed volume size opened profile auto dup base new free lowest
    have run : exec .loadVolume s = .next (loadVolumeRequest (recordTag r) q s.dropHead) :=
      whenReleased_taken takes parsed
    rw [loadVolumeRequest_ok (loadVolume_fieldsOk volume size opened profile auto dup base)
      (s := s.dropHead) new free lowest] at run
    have answered := answer_changes (s.dropHead.putVol i (some q.record)) 24 (recordTag r) .ok
      (.loadVolume i.val)
    refine ⟨_, run, ?_, answered_alone ⟨rfl, rfl⟩, ?_, fun j hj => ?_, q.record, ?_, ?_⟩
    · exact andThen (by decide) (andThen (by decide) (within (by decide) (dropHead_changes s))
        (putVol_changes ..)) answered
    · have cat : State.cat _ = _ := answered.2 .cat (by decide)
      rw [cat]
      rfl
    · exact (vol_of_changes (by decide) answered j).trans (vol_putVol_other _ hj _)
    · exact (vol_of_changes (by decide) answered i).trans (vol_putVol_self ..)
    · refine ⟨rfl, rfl, rfl, rfl, rfl, rfl, ?_, rfl, rfl, rfl, rfl, rfl, rfl, rfl, rfl, rfl, rfl,
        rfl, rfl, rfl, rfl⟩
      exact Nat.mod_eq_of_lt (Nat.lt_succ_of_le profile)
  · intro q kind i v takes parsed ofKind volume epoch found below newest births each total room
      retained x
    have run : exec .loadSnapshot s = .next (loadSnapshotRequest (recordTag r) q s.dropHead) :=
      whenReleased_taken takes parsed
    have list : loadListOk q.epoch v.retained q.buckets = true := by
      simp only [loadListOk, births, Bool.and_eq_true, List.all_eq_true, bne_iff_ne,
        decide_eq_true_eq, true_and]
      exact ⟨each, total⟩
    rw [loadSnapshotRequest_ok
      (s := s.dropHead) ofKind volume epoch found below newest list room] at run
    refine ⟨_, run, ?_, ?_, answered_alone ⟨rfl, rfl⟩⟩
    · exact andThen (by decide) (andThen (by decide) (andThen (by decide) (within (by decide)
        (dropHead_changes s)) (setCat_changes ..)) (putVol_changes ..)) (answer_changes ..)
    · exact (answer_changes ..).2 .cat (by decide)
  · intro q cls takes parsed valid present tracked override
    have run : exec .loadOwner s = .next (loadOwnerRequest (recordTag r) q s.dropHead) :=
      whenReleased_taken takes parsed
    constructor
    · intro o found
      have touched := findOwner_touchOwner s.dropHead (f := fun o =>
        { o with used := q.used, override := q.limits, lastCharge := s.now }) found rfl
      have others := touchOwner_othersKept s.dropHead (id := q.owner) (f := fun o =>
        { o with used := q.used, override := q.limits, lastCharge := s.now }) fun _ => rfl
      have loaded : s.dropHead.loadOwner q cls = some (s.dropHead.touchOwner q.owner fun o =>
          { o with used := q.used, override := q.limits, lastCharge := s.now }) := by
        unfold State.loadOwner
        rw [show s.dropHead.findOwner q.owner = some o from found]
        rfl
      rw [loadOwnerRequest_ok (s := s.dropHead) valid present tracked loaded touched] at run
      obtain ⟨t, ran, owners, changes, answered⟩ :=
        loadOwner_answered run (touchOwner_changes ..) (congrArg Fin.val (reevaluate_cls ..))
      have find := findOwner_congr owners
      exact ⟨t, ran, (find _).trans touched, fun x hx => (find x).trans (others x hx), changes,
        answered⟩
    · intro new room
      have made : (s.reevaluate (s.loadedOwner q cls)).id = q.owner := reevaluate_id ..
      have loaded : s.dropHead.loadOwner q cls = some (s.dropHead.setOwners
          (putOwner (s.reevaluate (s.loadedOwner q cls)) s.owners)) := by
        unfold State.loadOwner
        rw [show s.dropHead.findOwner q.owner = none from new]
        exact if_pos room
      have found : (s.dropHead.setOwners (putOwner (s.reevaluate (s.loadedOwner q cls))
          s.owners)).findOwner q.owner = some (s.reevaluate (s.loadedOwner q cls)) := by
        have := find_putOwner_self (s.reevaluate (s.loadedOwner q cls)) s.owners
        rwa [made] at this
      rw [loadOwnerRequest_ok (s := s.dropHead) valid present tracked loaded found] at run
      obtain ⟨t, ran, owners, changes, answered⟩ :=
        loadOwner_answered run (setOwners_changes ..) (congrArg Fin.val (reevaluate_cls ..))
      have find := findOwner_congr owners
      refine ⟨t, ran, (find _).trans found, fun x hx => (find x).trans
        (find_putOwner_other _ _ (by rwa [made])), ?_, changes, answered⟩
      rw [owners]
      exact length_putOwner_of_new (made ▸ new)

end Sys2Proof.Proofs

/-! PROOFS. The transmit slots as functions of the link (R50, R53 to R55), and what an attempt
leaves (R21, R51, R52): settles O41. -/

namespace Sys2Proof.Proofs

open Sys2Proof.Machine Sys2Proof.Safety

variable {s t u w : State} {o : Owner} {l : Link} {id : OwnerId}

/-! ### The transmit slots -/

/-- A free transmitter takes the ANNOUNCE slot, else the USAGE slot, if it is WAITING (R55). -/
def takeLink (l : Link) : Link :=
  if l.transmitterFree then
    if l.announceSlot = .waiting then
      { l with announceSlot := .held, attempts := 0, backoff := none, onPair := none,
               replaced := false }
    else if l.usageSlot = .waiting then
      { l with usageSlot := .held, attempts := 0, backoff := none, onPair := none,
               replaced := false }
    else l
  else l

/-- The filling of the ANNOUNCE slot (R53). -/
def fillLink (l : Link) : Link :=
  if l.state = .active then
    match l.announceSlot with
    | .empty => { l with announceSlot := .waiting }
    | .waiting => l
    | .held => if l.onPair.isSome then { l with replaced := true } else l
  else l

/-- The filling of the USAGE slot with the owners chosen (R20, R54). -/
def composeLink (serving : Bool) (chosen : List (OwnerId × Nat)) (l : Link) : Link :=
  if l.usageSlot = .empty ∧ l.state = .active ∧ serving = true ∧ chosen ≠ [] then
    { l with usageSlot := .waiting, usageEntries := chosen }
  else l

theorem takeSlot_eq (s : State) : s.takeSlot = s.setLink (takeLink s.link) := by
  unfold State.takeSlot takeLink
  dsimp only
  split
  · split
    · rfl
    · split <;> rfl
  · rfl

theorem fillAnnounce_eq (s : State) : s.fillAnnounce = s.setLink (fillLink s.link) := by
  unfold State.fillAnnounce fillLink
  dsimp only
  split
  · cases s.link.announceSlot with
    | empty => rfl
    | waiting => rfl
    | held =>
      dsimp only
      split <;> rfl
  · rfl

/-- An owner is report-due (R19). -/
theorem reportDue_eq (s : State) : s.reportDue = isReportDue s := by
  funext o
  unfold State.reportDue isReportDue
  rw [Bool.eq_iff_iff, decide_eq_true_eq, Bool.or_eq_true, decide_eq_true_eq, Bool.and_eq_true,
    beq_iff_eq, bne_iff_ne]
  have : o.used - o.lastReported + (o.lastReported - o.used) =
      max o.used o.lastReported - min o.used o.lastReported := by omega
  rw [this]

/-- An owner is overdue (R19). -/
theorem overdue_eq (s : State) : s.overdue = isOverdue s := by
  funext o
  unfold State.overdue isOverdue
  cases o.reportTime <;> rfl

/-- The owners of a USAGE frame (R19, R20). -/
theorem usageSelection_eq (s : State) : s.usageSelection = usageChoice s := by
  unfold State.usageSelection usageChoice
  rw [reportDue_eq, overdue_eq]

theorem composeUsage_eq (s : State) : s.composeUsage =
    s.setLink (composeLink (s.part == .serving) (usageChoice s) s.link) := by
  unfold State.composeUsage composeLink
  rw [usageSelection_eq]
  by_cases ready : s.link.usageSlot = .empty ∧ s.link.state = .active ∧ s.part = .serving
  · rw [if_pos ready]
    obtain ⟨slot, state, part⟩ := ready
    cases chosen : usageChoice s with
    | nil => rw [if_neg (by simp)]; rfl
    | cons e es => rw [if_pos ⟨slot, state, by simp [part], by simp⟩]
  · rw [if_neg ready, if_neg fun h => ready ⟨h.1, h.2.1, by simpa using h.2.2.1⟩]
    rfl

/-- A link whose slots hold nothing to take. -/
theorem takeLink_idle (announce : l.announceSlot ≠ .waiting) (usage : l.usageSlot ≠ .waiting) :
    takeLink l = l := by
  unfold takeLink
  rw [if_neg announce, if_neg usage, ite_self]

/-- Nothing is on the pair behind a slot that was taken. -/
theorem takeLink_onPair (h : l.onPair = none) : (takeLink l).onPair = none := by
  unfold takeLink
  split
  · split
    · rfl
    · split
      · rfl
      · exact h
  · exact h

theorem composeLink_onPair {serving : Bool} {chosen : List (OwnerId × Nat)} :
    (composeLink serving chosen l).onPair = l.onPair := by
  unfold composeLink
  split <;> rfl

/-- What the three keep of the link. -/
theorem slots_keep (serving : Bool) (chosen : List (OwnerId × Nat)) (l : Link) :
    ∀ m ∈ [takeLink l, fillLink l, composeLink serving chosen l],
      m.state = l.state ∧ m.generation = l.generation ∧ m.rng = l.rng ∧ m.peers = l.peers := by
  intro m hm
  rcases List.mem_cons.mp hm with rfl | hm
  · unfold takeLink
    split
    · split
      · exact ⟨rfl, rfl, rfl, rfl⟩
      · split <;> exact ⟨rfl, rfl, rfl, rfl⟩
    · exact ⟨rfl, rfl, rfl, rfl⟩
  rcases List.mem_cons.mp hm with rfl | hm
  · unfold fillLink
    split
    · split
      · exact ⟨rfl, rfl, rfl, rfl⟩
      · exact ⟨rfl, rfl, rfl, rfl⟩
      · split <;> exact ⟨rfl, rfl, rfl, rfl⟩
    · exact ⟨rfl, rfl, rfl, rfl⟩
  · rw [List.mem_singleton.mp hm]
    unfold composeLink
    split <;> exact ⟨rfl, rfl, rfl, rfl⟩

/-! ### The send recorded -/

/-- The record of an owner whose send is recorded (R21). -/
def sent (now used : Nat) (o : Owner) : Owner :=
  { o with lastReported := used, reportTime := some now }

/-- One entry of a USAGE frame that was sent. -/
def recordOne (s : State) (e : OwnerId × Nat) : State :=
  match s.findOwner e.1 with
  | none => s
  | some o => s.setOwners (putOwner (sent s.now e.2 o) s.owners)

theorem recordSend_eq (s : State) : s.recordSend = s.link.usageEntries.foldl recordOne s := rfl

theorem recordOne_find (s : State) (e : OwnerId × Nat) (id : OwnerId) :
    (recordOne s e).findOwner id =
      if id = e.1 then (s.findOwner id).map (sent s.now e.2) else s.findOwner id := by
  unfold recordOne
  split
  · rename_i none
    split
    · rename_i eq
      rw [eq, none]
      rfl
    · rfl
  · rename_i o found
    have same : o.id = e.1 := findOwner_id s found
    split
    · rename_i eq
      rw [eq, found, ← same]
      exact find_putOwner_self (sent s.now e.2 o) _
    · rename_i ne
      rw [← same] at ne
      exact find_putOwner_other (sent s.now e.2 o) _ ne

theorem recordOne_now (s : State) (e : OwnerId × Nat) : (recordOne s e).now = s.now := by
  unfold recordOne
  split <;> rfl

/-- The sends of a frame that names each owner once. -/
theorem recordAll_find (es : List (OwnerId × Nat)) (once : (es.map (·.1)).Nodup) (s : State) :
    (∀ e ∈ es, (es.foldl recordOne s).findOwner e.1 = (s.findOwner e.1).map (sent s.now e.2)) ∧
      ∀ id, id ∉ es.map (·.1) → (es.foldl recordOne s).findOwner id = s.findOwner id := by
  induction es generalizing s with
  | nil => exact ⟨by simp, fun _ _ => rfl⟩
  | cons a as ih =>
    obtain ⟨fresh, once⟩ := List.nodup_cons.mp once
    obtain ⟨named, others⟩ := ih once (recordOne s a)
    refine ⟨fun e he => ?_, fun id hid => ?_⟩
    · rcases List.mem_cons.mp he with rfl | he
      · rw [List.foldl_cons, others _ fresh, recordOne_find, if_pos rfl]
      · have ne : e.1 ≠ a.1 := fun eq => fresh (List.mem_map.mpr ⟨e, he, eq⟩)
        rw [List.foldl_cons, named e he, recordOne_find, if_neg ne, recordOne_now]
    · rw [List.map_cons, List.mem_cons, not_or] at hid
      rw [List.foldl_cons, others id hid.2, recordOne_find, if_neg hid.1]

/-! ### Attempts -/

theorem exec_released {f : State → State} {c : Instr} (rule : exec c s = whenReleased s f)
    (released : s.rst = false) : exec c s = .next (f s) := by
  rw [rule, whenReleased, released, if_neg (by decide)]

/-- An attempt drives the held frame (R50). -/
theorem transmitAttemptStart_drives (released : s.rst = false) {f : Bytes}
    (held : s.heldFrame = some f) (quiet : s.link.backoff = none) (idle : s.link.onPair = none) :
    exec .transmitAttemptStart s = .next (s.setLink { s.link with
      attempts := s.link.attempts + 1, onPair := some f, replaced := false }) := by
  change execTransmitAttemptStart s = _
  unfold execTransmitAttemptStart whenReleased
  dsimp only
  rw [if_neg (by simp [released]), held]
  exact congrArg _ (if_pos (by simp [quiet, idle]))

/-- A frame that leaves the transmitter from the ANNOUNCE slot (R50, R53). -/
theorem attemptSuccess_announce (released : s.rst = false) {f : Bytes}
  (driving : s.link.onPair = some f)
    (held : s.link.announceSlot = .held) (kept : s.link.replaced = false)
    (usage : s.link.usageSlot = .empty) :
    exec .attemptSuccess s = .next (s.setLink { s.link with
      announceSlot := .empty, attempts := 0, onPair := none, replaced := false }) := by
  rw [exec_released (c := .attemptSuccess) rfl released, if_pos (by simp [driving])]
  unfold State.frameSent
  rw [if_pos held, takeSlot_eq, takeLink_idle]
  · simp [kept]
  · simp [kept]
  · simp [usage]

/-- A frame that leaves the transmitter from the USAGE slot (R21, R50, R54). -/
theorem attemptSuccess_usage (released : s.rst = false) {f : Bytes}
  (driving : s.link.onPair = some f)
    (held : s.link.announceSlot ≠ .held) :
    exec .attemptSuccess s = .next ((s.recordSend.setLink { s.link with
      usageSlot := .empty, usageEntries := [], attempts := 0, onPair := none,
      replaced := false }).composeUsage.takeSlot) := by
  have link : s.recordSend.link = s.link := (recordSend_changes s).2 .link (by decide)
  rw [exec_released (c := .attemptSuccess) rfl released, if_pos (by simp [driving])]
  unfold State.frameSent
  rw [if_neg held]
  dsimp only
  rw [link]

/-- A frame that is dropped from the ANNOUNCE slot (R52). -/
theorem giveUp_announce (held : s.link.announceSlot = .held) (usage : s.link.usageSlot = .empty) :
    Raised s s.giveUp .linkGiveup s.station.val ∧ s.giveUp.link = { s.link with
      announceSlot := .empty, attempts := 0, onPair := none, replaced := false } ∧
    ChangesOnly [.link, .port] s s.giveUp := by
  have link : s.giveUp.link = takeLink { s.link with
      announceSlot := .empty, attempts := 0, onPair := none, replaced := false } := by
    unfold State.giveUp
    rw [if_pos held, takeSlot_eq]
    exact congrArg takeLink ((flushEvent_changes _).2 .link (by decide))
  refine ⟨?_, link.trans (takeLink_idle (by simp) (by simp [usage])), giveUp_changes s⟩
  unfold State.giveUp
  rw [if_pos held, takeSlot_eq]
  unfold Raised
  rw [State.setLink_port, events_flushEvent]
  exact raise_raised (s := (s.setLink _).setLink _) _ _

/-- Settles O41. -/
theorem transmitAttemptsSucceedOrCollide : Obligations.TransmitAttemptsSucceedOrCollide := by
  intro s released
  have expiry := exec_released (c := .backoffExpiry) (s := s)
    (f := fun s => s.setLink { s.link with backoff := none }) rfl released
  refine ⟨fun f held quiet idle => ?_, expiry, fun f driving =>
    ⟨attemptSuccess_announce released driving, fun empty once => ?_, fun few => ?_,
      fun many held usage => ?_⟩⟩
  · exact transmitAttemptStart_drives released held quiet idle
  · refine ⟨_, attemptSuccess_usage released driving (by simp [empty]), ?_, ?_, ?_⟩
    · rw [takeSlot_eq, composeUsage_eq]
      exact takeLink_onPair composeLink_onPair
    · exact andThen (by decide) (andThen (by decide) (andThen (by decide) (within (by decide)
        (recordSend_changes s)) (setLink_changes ..)) (composeUsage_changes _)) (takeSlot_changes _)
    · have recorded := recordAll_find s.link.usageEntries once s
      rw [← recordSend_eq] at recorded
      have find := findOwner_of_changes (l := [.link]) (by decide) (andThen (by decide)
        (andThen (by decide) (within (by decide) (setLink_changes s.recordSend { s.link with
          usageSlot := .empty, usageEntries := [], attempts := 0, onPair := none,
          replaced := false })) (composeUsage_changes _)) (takeSlot_changes _))
      exact ⟨fun e he => (find e.1).trans (recorded.1 e he),
        fun id hid => (find id).trans (recorded.2 id hid)⟩
  · refine ⟨s.link.drawBackoff, Nat.mod_lt _ (by positivity), ?_⟩
    rw [exec_released (c := .collision) rfl released, if_pos (by simp [driving]),
      if_neg (by omega)]
  · obtain ⟨raised, link, changes⟩ := giveUp_announce held usage
    refine ⟨_, ?_, raised, link, changes⟩
    rw [exec_released (c := .collision) rfl released, if_pos (by simp [driving]), if_pos many]

end Sys2Proof.Proofs

/-! PROOFS. LOAD_DONE (R23, R100, R187): settles O51. -/

namespace Sys2Proof.Proofs

open Sys2Proof.Machine Sys2Proof.Safety

variable {s t u w : State} {i : Fin 8} {v : Volume} {tag g : Nat}

/-- The state in which LOAD_DONE answers, behind the steps 1 to 6 of R187. -/
def inService (g : Nat) (s : State) : State :=
  let u := ((s.setLink { s.link with generation := g }).seedRng g).removeBases
  let lock := lockAtLoadDone u.cfg u.maint
  ((u.setCat { u.cat with lock := lock.1, lockCause := lock.2, lockClosedSince := false }).setPart
    .serving).warmUpAll

/-- The state with its link seeded, of which the bases are removed. -/
abbrev seeded (g : Nat) (s : State) : State :=
  (s.setLink { s.link with generation := g }).seedRng g

theorem seeded_removeBases_changes (g : Nat) (s : State) :
    ChangesOnly [.cat, .link] s (seeded g s).removeBases :=
  andThen (by decide) (andThen (by decide) (within (by decide)
    (setLink_changes s { s.link with generation := g })) (seedRng_changes ..))
      (removeBases_changes _)

theorem seeded_link (g : Nat) (s : State) : (seeded g s).removeBases.link =
    { s.link with generation := g, rng := { station := s.station, generation := g, drawn := 0 } } :=
  (removeBases_changes _).2 .link (by decide)

/-- What the start of service leaves of the blocks. -/
theorem inService_fields (g : Nat) (s : State) :
    (inService g s).part = .serving ∧ (inService g s).station = s.station ∧
      (inService g s).image = s.image ∧ (inService g s).time = s.time ∧
      (inService g s).port = s.port ∧ (inService g s).adm = s.adm ∧ (inService g s).rsc = s.rsc ∧
      (inService g s).dup = s.dup ∧ (inService g s).poolFree = s.poolFree ∧
      (inService g s).link = { s.link with
        generation := g, rng := { station := s.station, generation := g, drawn := 0 } } := by
  have only := seeded_removeBases_changes g s
  exact ⟨rfl, only.1.2.2.1, only.1.2.2.2.2.1, only.2 .time (by decide), only.2 .port (by decide),
    only.2 .adm (by decide), only.2 .rsc (by decide), only.2 .dup (by decide),
    only.2 .pool (by decide), seeded_link g s⟩

theorem inService_vol (g : Nat) (s : State) (i : Fin 8) : (inService g s).vol i =
    if i ∈ s.missingBases then (s.vol i).map withoutBase else s.vol i :=
  removeBases_vol (seeded g s) i

theorem removeBases_snaps (s : State) : s.removeBases.cat.snaps = s.cat.snaps := by
  refine foldl_keeps (P := fun u => u.cat.snaps = s.cat.snaps) (fun u i hu => ?_) _ _ rfl
  unfold State.modifyVol
  split <;> exact hu

/-- The link behind the announcement of service (R187 step 7). -/
theorem announceServing_link (s : State) : s.announceServing.link =
    if s.link.state = .active then
      takeLink (composeLink (s.part == .serving) (usageChoice s) (fillLink s.link))
    else s.link := by
  unfold State.announceServing
  split
  · rw [takeSlot_eq, composeUsage_eq, fillAnnounce_eq]
    rfl
  · rfl

theorem announceServing_keeps (s : State) : s.announceServing.link.generation = s.link.generation ∧
    s.announceServing.link.rng = s.link.rng ∧ s.announceServing.link.peers = s.link.peers := by
  have take := fun l => slots_keep (s.part == .serving) (usageChoice s) l (takeLink l) (by simp)
  have fill := fun l => slots_keep (s.part == .serving) (usageChoice s) l (fillLink l) (by simp)
  have compose := fun l => slots_keep (s.part == .serving) (usageChoice s) l
    (composeLink (s.part == .serving) (usageChoice s) l) (by simp)
  rw [announceServing_link]
  split
  · obtain ⟨-, takeG, takeR, takeP⟩ := take (composeLink (s.part == .serving) (usageChoice s)
      (fillLink s.link))
    obtain ⟨-, composeG, composeR, composeP⟩ := compose (fillLink s.link)
    obtain ⟨-, fillG, fillR, fillP⟩ := fill s.link
    exact ⟨takeG.trans (composeG.trans fillG), takeR.trans (composeR.trans fillR),
      takeP.trans (composeP.trans fillP)⟩
  · exact ⟨rfl, rfl, rfl⟩

/-- The slots whose base LOAD_DONE removes, as the statement lists them. -/
theorem missingBases_eq (s : State) : s.missingBases = (List.finRange 8).filter fun i =>
    (s.vol i).any fun v => v.base.any fun e => (s.findSnap i e).isNone := by
  have all : slots8 = List.finRange 8 := by decide
  unfold State.missingBases
  rw [all]
  congr 1
  funext i
  cases s.vol i with
  | none => rfl
  | some v =>
    unfold State.baseMissing
    dsimp only [Option.any_some]
    cases v.base <;> rfl

/-- The lock that LOAD_DONE fixes and its cause (R100, R103). -/
theorem lockAtLoadDone_eq (cfg : Image) (maint : Bool) : lockAtLoadDone cfg maint =
    (if cfg.lockAtStart = .opened ∨ maint = true then .opened else .closed,
      if cfg.lockAtStart = .opened then .image else if maint = true then .strap else .image) := by
  unfold lockAtLoadDone
  split
  · rename_i opened
    simp [opened]
  · rename_i closed
    split
    · rename_i high
      simp [closed, high]
    · rename_i low
      simp [closed, low]

/-- What follows the answer of LOAD_DONE: the slots of the link, the evaluations (R187). -/
def afterService (s : State) : State := slots8.foldl State.evaluate s.announceServing

theorem afterService_changes (s : State) : ChangesOnly [.link, .cat, .port] s (afterService s) :=
  andThen (by decide) (within (by decide) (announceServing_changes s))
    (.foldl (fun u i => evaluate_changes u i) _ _)

theorem afterService_link (s : State) : (afterService s).link = s.announceServing.link :=
  (ChangesOnly.foldl (l := [.cat, .port]) (fun u i => evaluate_changes u i) slots8
    s.announceServing).2 .link (by decide)

theorem afterService_cat (s : State) :
    lastingVols (afterService s) = lastingVols s ∧ lockOf (afterService s) = lockOf s := by
  have cat : s.announceServing.cat = s.cat := (announceServing_changes s).2 .cat (by decide)
  have start : lastingVols s.announceServing = lastingVols s ∧ lockOf s.announceServing = lockOf s
    := by
    constructor
    · funext j
      simp only [lastingVols, State.vol, cat]
    · simp only [lockOf, cat]
  exact foldl_keeps (P := fun u => lastingVols u = lastingVols s ∧ lockOf u = lockOf s)
    (fun u i hu => ⟨(lastingVols_evaluate u i).trans hu.1, (lockOf_evaluate u i).trans hu.2⟩) _ _
    start

theorem inService_owners (g : Nat) (s : State) : (inService g s).owners =
    s.owners.map fun o => s.reevaluate { o with
      warmUp := some (s.time.uptime + s.cfg.sweepPeriod * 1000) } := by
  have only := seeded_removeBases_changes g s
  have figures : SameFigures s (seeded g s).removeBases :=
    ⟨only.1.2.2.2.2.1, only.2 .time (by decide), by rw [seeded_link]⟩
  have owners : (seeded g s).removeBases.owners = s.owners := only.2 .owners (by decide)
  have now : (seeded g s).removeBases.now = s.now := congrArg Timebase.uptime figures.2.1
  have cfg : (seeded g s).removeBases.cfg = s.cfg := by rw [State.cfg, figures.1, State.cfg]
  change ((seeded g s).removeBases.owners.map fun o => (seeded g s).removeBases.reevaluate
    { o with warmUp := some ((seeded g s).removeBases.now +
      secondsMs (seeded g s).removeBases.cfg.sweepPeriod) }) = _
  rw [owners, now, cfg]
  exact List.map_congr_left fun o _ => figures.reevaluate _

/-- The record of a volume when service has started. -/
theorem afterService_vol {b : Body} (found : s.vol i = some v) :
    ∃ w, (afterService ((inService g s).answer 27 tag .ok b)).vol i = some w ∧ w.id = v.id ∧
      w.size = v.size ∧ (i ∈ s.missingBases → w.base = none ∧ w.fullScan = true) ∧
      (i ∉ s.missingBases → w.base = v.base ∧ w.fullScan = v.fullScan) := by
  have kept := congrFun (afterService_cat ((inService g s).answer 27 tag .ok b)).1 i
  rw [lastingVols, lastingVols, vol_of_changes (by decide) (answer_changes ..), inService_vol,
    found, Option.map_some] at kept
  by_cases missing : i ∈ s.missingBases
  · rw [if_pos missing, Option.map_some] at kept
    obtain ⟨w, found, same⟩ := Option.map_eq_some_iff.mp kept
    obtain ⟨id, size, base, scan⟩ := lasting_fields same
    exact ⟨w, found, id, size, fun _ => ⟨base, scan⟩, fun present => absurd missing present⟩
  · rw [if_neg missing, Option.map_some] at kept
    obtain ⟨w, found, same⟩ := Option.map_eq_some_iff.mp kept
    obtain ⟨id, size, base, scan⟩ := lasting_fields same
    exact ⟨w, found, id, size, fun gone => absurd gone missing, fun _ => ⟨base, scan⟩⟩

theorem inService_lock (g : Nat) (s : State) : lockOf (inService g s) =
    ((lockAtLoadDone s.cfg s.maint).1, (lockAtLoadDone s.cfg s.maint).2, false) := by
  have only := seeded_removeBases_changes g s
  have cfg : (seeded g s).removeBases.cfg = s.cfg := by
    rw [State.cfg, only.1.2.2.2.2.1, State.cfg]
  have maint : (seeded g s).removeBases.maint = s.maint := only.1.2.2.2.1
  rw [← cfg, ← maint]
  rfl

/-- The completion of LOAD_DONE (R187). -/
theorem inService_body (g n : Nat) (s : State) : (inService g s).loadDoneBody n =
    .loadDone g ((List.finRange 8).filter fun i => (s.vol i).isSome).length s.cat.snaps.length
      s.owners.length n (lockAtLoadDone s.cfg s.maint).1 (lockAtLoadDone s.cfg s.maint).2 := by
  have vols : ∀ i, ((inService g s).vol i).isSome = (s.vol i).isSome := fun i => by
    rw [inService_vol]
    split <;> simp
  have all : slots8 = List.finRange 8 := by decide
  have snaps : (inService g s).cat.snaps = s.cat.snaps := removeBases_snaps (seeded g s)
  have lock := inService_lock g s
  have link : (inService g s).link.generation = g := by
    obtain ⟨-, -, -, -, -, -, -, -, -, link⟩ := inService_fields g s
    rw [link]
  unfold State.loadDoneBody
  simp only [lockOf, Prod.mk.injEq] at lock
  obtain ⟨state, cause, -⟩ := lock
  rw [all, link, snaps, inService_owners, List.length_map, state, cause]
  simp only [vols]

/-- The state behind a LOAD_DONE that starts service. -/
def started (g tag : Nat) (b : Body) (s : State) : State :=
  afterService ((inService g s).answer 27 tag .ok b)

theorem loadDoneRequest_eq (h : g ≠ 0) : loadDoneRequest tag g s =
    started g tag (.loadDone g ((List.finRange 8).filter fun i => (s.vol i).isSome).length
      s.cat.snaps.length s.owners.length s.missingBases.length (lockAtLoadDone s.cfg s.maint).1
      (lockAtLoadDone s.cfg s.maint).2) s := by
  rw [← inService_body]
  unfold loadDoneRequest
  rw [if_neg h]
  rfl

theorem started_changes (g tag : Nat) (b : Body) (s : State) :
    ChangesOnly [.link, .cat, .port] (inService g s) (started g tag b s) :=
  (within (by decide) (answer_changes ..)).trans (afterService_changes _)

theorem started_blocks (g tag : Nat) (b : Body) (s : State) :
    (started g tag b s).part = .serving ∧ (started g tag b s).time = s.time ∧
      (started g tag b s).adm = s.adm ∧ (started g tag b s).rsc = s.rsc ∧
      (started g tag b s).dup = s.dup ∧ (started g tag b s).poolFree = s.poolFree ∧
      (started g tag b s).image = s.image := by
  obtain ⟨part, -, image, time, -, adm, rsc, dup, pool, -⟩ := inService_fields g s
  have only := started_changes g tag b s
  exact ⟨only.1.2.1.trans part, (only.2 .time (by decide)).trans time,
    (only.2 .adm (by decide)).trans adm, (only.2 .rsc (by decide)).trans rsc,
    (only.2 .dup (by decide)).trans dup, (only.2 .pool (by decide)).trans pool,
    only.1.2.2.2.2.1.trans image⟩

theorem started_link (g tag : Nat) (b : Body) (s : State) :
    (started g tag b s).link.generation = g ∧
      (started g tag b s).link.rng = { station := s.station, generation := g, drawn := 0 } ∧
      (started g tag b s).link.peers = s.link.peers := by
  obtain ⟨-, -, -, -, -, -, -, -, -, link⟩ := inService_fields g s
  obtain ⟨generation, rng, peers⟩ := announceServing_keeps ((inService g s).answer 27 tag .ok b)
  have kept : ((inService g s).answer 27 tag .ok b).link = (inService g s).link :=
    (answer_changes ..).2 .link (by decide)
  rw [kept, link] at generation rng peers
  unfold started
  rw [afterService_link]
  exact ⟨generation, rng, peers⟩

theorem started_lock (g tag : Nat) (b : Body) (s : State) : lockOf (started g tag b s) =
    ((lockAtLoadDone s.cfg s.maint).1, (lockAtLoadDone s.cfg s.maint).2, false) := by
  have cat : ((inService g s).answer 27 tag .ok b).cat = (inService g s).cat :=
    (answer_changes ..).2 .cat (by decide)
  unfold started
  rw [(afterService_cat _).2, lockOf, cat, ← inService_lock g s, lockOf]

/-- The completion of LOAD_DONE and what the steps behind it place. -/
theorem started_answered {r : Bytes} (g : Nat) (b : Body) (s : State) :
    Answered s (started g (recordTag r) b s.dropHead) (reply 27 (recordTag r) .ok b) := by
  obtain ⟨-, -, -, -, port, -⟩ := inService_fields g s.dropHead
  refine answered_of_quiet (w := inService g s.dropHead) ⟨by rw [port], by rw [port]⟩ ?_
  have announced : Grows ((inService g s.dropHead).answer 27 (recordTag r) .ok b)
      ((inService g s.dropHead).answer 27 (recordTag r) .ok b).announceServing :=
    .of_port_eq ((announceServing_changes _).2 .port (by decide))
  exact announced.trans (.foldl (fun u i => evaluate_grows u i) _ _)

/-- Settles O51: the steps of R187 one behind the other. -/
theorem loadDoneStartsService : Obligations.LoadDoneStartsService := by
  intro s r g takes parsed
  have run : exec .loadDone s = .next (loadDoneRequest (recordTag r) g s.dropHead) :=
    whenReleased_taken takes parsed
  constructor
  · intro zero
    unfold loadDoneRequest at run
    rw [if_pos zero] at run
    exact ⟨_, run, refused_changes, answered_alone (.refl _)⟩
  · intro nonzero lock vols gone cause
    have removed : s.dropHead.missingBases = gone := missingBases_eq s.dropHead
    have ofLock : lockAtLoadDone s.dropHead.cfg s.dropHead.maint = (lock, cause) :=
      lockAtLoadDone_eq s.cfg s.maint
    have run : exec .loadDone s = .next (started g (recordTag r) (.loadDone g vols.length
        s.cat.snaps.length s.owners.length gone.length lock cause) s.dropHead) := by
      rw [run, loadDoneRequest_eq nonzero, removed, ofLock]
      rfl
    obtain ⟨part, time, adm, rsc, dup, pool, image⟩ := started_blocks g (recordTag r)
      (.loadDone g vols.length s.cat.snaps.length s.owners.length gone.length lock cause) s.dropHead
    obtain ⟨generation, rng, peers⟩ := started_link g (recordTag r)
      (.loadDone g vols.length s.cat.snaps.length s.owners.length gone.length lock cause) s.dropHead
    have locks := started_lock g (recordTag r)
      (.loadDone g vols.length s.cat.snaps.length s.owners.length gone.length lock cause) s.dropHead
    simp only [ofLock, lockOf, Prod.mk.injEq] at locks
    obtain ⟨ofState, ofCause, ofMark⟩ := locks
    have owners := (started_changes g (recordTag r)
      (.loadDone g vols.length s.cat.snaps.length s.owners.length gone.length lock cause)
      s.dropHead).2 .owners (by decide)
    refine ⟨_, run, part, generation, rng, peers, ofState, ofMark, ofCause,
      owners.trans (inService_owners g s.dropHead), fun i v found => ?_, time, adm, rsc, dup, pool,
      image, started_answered g _ s⟩
    rw [← removed]
    exact afterService_vol (s := s.dropHead) found

end Sys2Proof.Proofs

/-! PROOFS. Bytes and fields (R179): a number's bytes read back, a field of a composed record or
frame found at its offset, and the CRC behind a frame. -/

namespace Sys2Proof.Proofs

open Sys2Proof.Machine Sys2Proof.Safety

variable {a b tail : Bytes} {w n : Nat} {pre post : List (Nat × Nat)}

/-! ### Numbers -/

theorem bytesValue_append (a b : Bytes) :
    bytesValue (a ++ b) = bytesValue a * 256 ^ b.length + bytesValue b := by
  induction b using List.reverseRecOn with
  | nil => simp [bytesValue]
  | append_singleton b x ih =>
    unfold bytesValue at ih ⊢
    rw [← List.append_assoc, List.foldl_append, ih, List.foldl_append, List.length_append,
      List.length_singleton, pow_succ]
    simp only [List.foldl_cons, List.foldl_nil]
    ring

@[simp] theorem length_numberBytes (w n : Nat) : (numberBytes w n).length = w := by
  induction w with
  | zero => rfl
  | succ w ih => rw [numberBytes, List.length_cons, ih]

theorem bytesValue_numberBytes (w n : Nat) : bytesValue (numberBytes w n) = n % 256 ^ w := by
  induction w with
  | zero => rw [pow_zero, Nat.mod_one]; rfl
  | succ w ih =>
    have split : numberBytes (w + 1) n = [BitVec.ofNat 8 (n / 256 ^ w)] ++ numberBytes w n := rfl
    have one : bytesValue [BitVec.ofNat 8 (n / 256 ^ w)] = n / 256 ^ w % 256 := by
      simp [bytesValue]
    rw [split, bytesValue_append, one, ih, length_numberBytes, pow_succ, Nat.mod_mul, mul_comm]
    exact Nat.add_comm ..

theorem fieldAt_number (h : a.length = n) {x : Nat} :
    fieldAt (a ++ (numberBytes w x ++ tail)) n w = x % 256 ^ w := by
  unfold fieldAt
  rw [List.drop_left' h, List.take_left' (length_numberBytes w x), bytesValue_numberBytes]

/-! ### Fields -/

/-- The bytes that fields take. -/
def widthOf (fields : List (Nat × Nat)) : Nat := (fields.map Prod.fst).sum

theorem widthOf_append : widthOf (pre ++ post) = widthOf pre + widthOf post := by
  unfold widthOf
  rw [List.map_append, List.sum_append]

@[simp] theorem length_fieldBytes (fields : List (Nat × Nat)) :
    (fieldBytes fields).length = widthOf fields := by
  induction fields with
  | nil => rfl
  | cons x xs ih =>
    have : fieldBytes (x :: xs) = numberBytes x.1 x.2 ++ fieldBytes xs := rfl
    rw [this, List.length_append, ih, length_numberBytes]
    rfl

theorem fieldBytes_append : fieldBytes (pre ++ post) = fieldBytes pre ++ fieldBytes post :=
  List.flatMap_append

/-- A field is read back at the offset that the fields before it leave. -/
theorem fieldAt_fields (offset : widthOf pre = n) {x : Nat} :
    fieldAt (fieldBytes (pre ++ (w, x) :: post) ++ tail) n w = x % 256 ^ w := by
  have split : fieldBytes (pre ++ (w, x) :: post) ++ tail =
      fieldBytes pre ++ (numberBytes w x ++ (fieldBytes post ++ tail)) := by
    rw [fieldBytes_append, List.append_assoc]
    exact congrArg _ (List.append_assoc ..)
  rw [split]
  exact fieldAt_number ((length_fieldBytes pre).trans offset)

/-- The same by the field's place in the list. -/
theorem fieldAt_place {fields : List (Nat × Nat)} {k x : Nat} (h : fields[k]? = some (w, x))
    (offset : widthOf (fields.take k) = n) :
    fieldAt (fieldBytes fields ++ tail) n w = x % 256 ^ w := by
  obtain ⟨lt, get⟩ := List.getElem?_eq_some_iff.mp h
  have split : fields = fields.take k ++ (w, x) :: fields.drop (k + 1) := by
    rw [← get, List.cons_getElem_drop_succ, List.take_append_drop]
  rw [split]
  exact fieldAt_fields offset

/-! ### Blocks of fields of one size -/

section Blocks

variable {α : Type} {f : α → List (Nat × Nat)} {size k j v : Nat} {x : α} {l : List α}

theorem widthOf_flatMap (each : ∀ x, widthOf (f x) = size) (l : List α) :
    widthOf (l.flatMap f) = size * l.length := by
  induction l with
  | nil => rfl
  | cons x xs ih =>
    rw [List.flatMap_cons, widthOf_append, each, ih, List.length_cons, Nat.mul_succ, Nat.add_comm]

/-- A field of a block is read back at the offset of the block and its place in it. -/
theorem fieldAt_block (each : ∀ x, widthOf (f x) = size) (here : l[k]? = some x)
    (get : (f x)[j]? = some (w, v))
    (offset : widthOf pre + size * k + widthOf ((f x).take j) = n) :
    fieldAt (fieldBytes (pre ++ (l.flatMap f ++ post)) ++ tail) n w = v % 256 ^ w := by
  obtain ⟨lt, element⟩ := List.getElem?_eq_some_iff.mp here
  obtain ⟨lt', field⟩ := List.getElem?_eq_some_iff.mp get
  have blocks : l.flatMap f = (l.take k).flatMap f ++ (f x ++ (l.drop (k + 1)).flatMap f) := by
    rw [← List.flatMap_cons, ← List.flatMap_append, ← element, List.cons_getElem_drop_succ,
      List.take_append_drop]
  have block : f x = (f x).take j ++ (w, v) :: (f x).drop (j + 1) := by
    rw [← field, List.cons_getElem_drop_succ, List.take_append_drop]
  have before (rest : List (Nat × Nat)) :
      f x ++ rest = (f x).take j ++ (w, v) :: ((f x).drop (j + 1) ++ rest) :=
    (congrArg (· ++ rest) block).trans (List.append_assoc ..)
  have split : pre ++ (l.flatMap f ++ post) = (pre ++ ((l.take k).flatMap f ++ (f x).take j)) ++
      (w, v) :: ((f x).drop (j + 1) ++ ((l.drop (k + 1)).flatMap f ++ post)) := by
    rw [blocks]
    simp only [List.append_assoc, before, List.cons_append]
  rw [split]
  refine fieldAt_fields ?_
  rw [widthOf_append, widthOf_append, widthOf_flatMap each, List.length_take,
    Nat.min_eq_left lt.le, ← Nat.add_assoc, offset]

end Blocks

/-! ### The CRC of a frame -/

theorem withCrc16_length (body : Bytes) : (withCrc16 body).length = body.length + 2 := by
  unfold withCrc16
  rw [List.length_append, length_numberBytes]

theorem withCrc16_take (body : Bytes) : (withCrc16 body).take body.length = body :=
  List.take_left

theorem withCrc16_fieldAt (body : Bytes) :
    fieldAt (withCrc16 body) body.length 2 = crc16 body := by
  have small : crc16 body < 256 ^ 2 := BitVec.isLt _
  have read := fieldAt_number (a := body) (w := 2) (tail := []) rfl (x := crc16 body)
  rw [List.append_nil] at read
  exact read.trans (Nat.mod_eq_of_lt small)

theorem withCrc16_ok (body : Bytes) : crcOk (withCrc16 body) = true := by
  unfold crcOk
  rw [withCrc16_length, Nat.add_sub_cancel, withCrc16_take, withCrc16_fieldAt]
  exact beq_self_eq_true _

/-! ### The two frames -/

section Frames

variable (station generation : Nat) (part : PeerPart) (window : Bool) (backlog share count : Nat)
  (entries : List (OwnerId × Nat))

/-- The fields of an ANNOUNCE. -/
def announceFields : List (Nat × Nat) :=
  [(1, 1), (1, station), (2, generation), (1, part.code), (1, window.toNat), (4, backlog),
    (4, share), (2, count)]

theorem announceBytes_eq : announceBytes station generation part window backlog share count =
    withCrc16 (fieldBytes (announceFields station generation part window backlog share count)) :=
  rfl

/-- The layout of an ANNOUNCE (R56, R179). -/
theorem announce_layout :
    let b := announceBytes station generation part window backlog share count
    b.length = 18 ∧ fieldAt b 0 1 = 1 ∧ fieldAt b 1 1 = station % 256 ∧
    fieldAt b 2 2 = generation % 65536 ∧
    fieldAt b 4 1 = (match part with | .loading => 1 | .serving => 2) ∧
    fieldAt b 5 1 = window.toNat ∧ fieldAt b 6 4 = backlog % 4294967296 ∧
    fieldAt b 10 4 = share % 4294967296 ∧ fieldAt b 14 2 = count % 65536 ∧
    fieldAt b 16 2 = crc16 (b.take 16) := by
  intro b
  let fields := announceFields station generation part window backlog share count
  have length : (fieldBytes fields).length = 16 := length_fieldBytes fields
  have code : part.code % 256 = (match part with | .loading => 1 | .serving => 2) := by
    cases part <;> rfl
  have flag : window.toNat % 256 = window.toNat := by cases window <;> rfl
  have field (k w x n : Nat) (get : fields[k]? = some (w, x))
      (offset : widthOf (fields.take k) = n) : fieldAt b n w = x % 256 ^ w :=
    fieldAt_place get offset
  refine ⟨(withCrc16_length _).trans (congrArg (· + 2) length), field 0 1 1 0 rfl rfl,
    field 1 1 station 1 rfl rfl, field 2 2 generation 2 rfl rfl,
    (field 3 1 part.code 4 rfl rfl).trans code, (field 4 1 window.toNat 5 rfl rfl).trans flag,
    field 5 4 backlog 6 rfl rfl, field 6 4 share 10 rfl rfl, field 7 2 count 14 rfl rfl, ?_⟩
  have taken := withCrc16_take (fieldBytes fields)
  have crc := withCrc16_fieldAt (fieldBytes fields)
  rw [length] at taken crc
  exact crc.trans (congrArg crc16 taken.symm)

/-- The fields of an entry of a USAGE frame. -/
def entryOf (e : OwnerId × Nat) : List (Nat × Nat) := [(4, e.1.toNat), (4, e.2)]

/-- The fields of the entries of a USAGE frame. -/
def entryFields : List (Nat × Nat) := entries.flatMap entryOf

theorem widthOf_entryFields : widthOf (entryFields entries) = 8 * entries.length :=
  widthOf_flatMap (f := entryOf) (fun _ => rfl) entries

/-- The fields in front of the entries of a USAGE frame. -/
def usageHeader : List (Nat × Nat) := [(1, 2), (1, station), (2, generation), (1, entries.length)]

theorem usageBytes_eq : usageBytes station generation entries =
    withCrc16 (fieldBytes (usageHeader station generation entries ++ entryFields entries)) := rfl

/-- The layout of a USAGE frame (R57, R179). -/
theorem usage_layout :
    let b := usageBytes station generation entries
    let n := entries.length
    b.length = 7 + 8 * n ∧ fieldAt b 0 1 = 2 ∧ fieldAt b 1 1 = station % 256 ∧
    fieldAt b 2 2 = generation % 65536 ∧ fieldAt b 4 1 = n % 256 ∧
    (∀ k id used, entries[k]? = some (id, used) → fieldAt b (5 + 8 * k) 4 = id.toNat ∧
      fieldAt b (9 + 8 * k) 4 = used % 4294967296) ∧
    fieldAt b (5 + 8 * n) 2 = crc16 (b.take (5 + 8 * n)) := by
  intro b n
  let header := usageHeader station generation entries
  have length : (fieldBytes (header ++ entryFields entries)).length = 5 + 8 * n := by
    rw [length_fieldBytes, widthOf_append, widthOf_entryFields]
    rfl
  have field (k w x n : Nat) (get : (header ++ entryFields entries)[k]? = some (w, x))
      (offset : widthOf ((header ++ entryFields entries).take k) = n) :
      fieldAt b n w = x % 256 ^ w := fieldAt_place get offset
  have whole : b.length = 7 + 8 * n := by
    have := withCrc16_length (fieldBytes (header ++ entryFields entries))
    rw [length] at this
    exact this.trans (by omega)
  refine ⟨whole, field 0 1 2 0 rfl rfl, field 1 1 station 1 rfl rfl,
    field 2 2 generation 2 rfl rfl, field 3 1 n 4 rfl rfl, fun k id used get => ?_, ?_⟩
  · have entry (j w x offset : Nat) (field : (entryOf (id, used))[j]? = some (w, x))
        (place : 5 + 8 * k + widthOf ((entryOf (id, used)).take j) = offset) :
        fieldAt b offset w = x % 256 ^ w := by
      have read := fieldAt_block (f := entryOf) (pre := header) (post := []) (tail := numberBytes 2
        (crc16
        (fieldBytes (header ++ entryFields entries)))) (fun _ => rfl) get field place
      rwa [List.append_nil] at read
    exact ⟨(entry 0 4 id.toNat (5 + 8 * k) rfl rfl).trans (Nat.mod_eq_of_lt id.isLt),
      entry 1 4 used (9 + 8 * k) rfl (Nat.add_right_comm 5 (8 * k) 4)⟩
  · have taken := withCrc16_take (fieldBytes (header ++ entryFields entries))
    have crc := withCrc16_fieldAt (fieldBytes (header ++ entryFields entries))
    rw [length] at taken crc
    exact crc.trans (congrArg crc16 taken.symm)

end Frames

end Sys2Proof.Proofs

/-! PROOFS. What the frames of a peer change (R56 to R58, R61): one USAGE entry (R8 to R10), then
the bytes of the two frames as received; settles O42. -/

namespace Sys2Proof.Proofs

open Sys2Proof.Machine Sys2Proof.Safety

variable {s t : State} {o : Owner} {i : Fin 16} {id : OwnerId} {g blocks : Nat}
  {c m : Contribution} {l : List Contribution}

/-! ### The contribution list (R9, R10) -/

/-- The station's report in place of the one that stands. -/
theorem putContribution_of_any (h : Ascends (·.station.val) l)
    (any : l.any (·.station == c.station) = true) :
    putContribution c l = l.map fun d => if d.station = c.station then c else d := by
  induction l with
  | nil => cases any
  | cons x xs ih =>
    obtain ⟨above, rest⟩ := List.pairwise_cons.mp h
    unfold putContribution
    by_cases here : c.station = x.station
    · have others : xs.map (fun d => if d.station = c.station then c else d) = xs := by
        refine (List.map_congr_left fun d mem => ?_).trans (List.map_id xs)
        have lt : x.station < d.station := above d mem
        exact if_neg (here ▸ lt.ne')
      rw [if_pos here, List.map_cons, if_pos here.symm, others]
    · have later : xs.any (·.station == c.station) = true := by
        rw [List.any_cons, beq_false_of_ne (Ne.symm here), Bool.false_or] at any
        exact any
      obtain ⟨d, mem, same⟩ := List.any_eq_true.mp later
      have lt : ¬ c.station < x.station := by
        have lt : x.station < d.station := above d mem
        rw [eq_of_beq same] at lt
        exact lt.asymm
      rw [if_neg here, if_neg lt, List.map_cons, if_neg (Ne.symm here), ih rest later]

/-- The station's report among the others, in station order. -/
def joined (c : Contribution) (l : List Contribution) : List Contribution :=
  l.filter (·.station < c.station) ++ c :: l.filter (c.station < ·.station)

theorem putContribution_joined (h : Ascends (·.station.val) l) :
    putContribution c l = joined c l := by
  rw [putContribution_eq, putBy_of_ascends h]
  rfl

theorem takeReport_zero (zero : c.blocks = 0) : o.takeReport c =
    ({ o with contributions := o.contributions.filter (·.station != c.station),
              overflow := false }, false) := by
  unfold Owner.takeReport
  rw [if_pos zero]

/-- A report of a station that stands, or with room for one more. -/
theorem takeReport_put (some : c.blocks ≠ 0)
    (room : o.contributions.any (·.station == c.station) = true ∨ o.contributions.length < 6) :
    o.takeReport c = ({ o with contributions := putContribution c o.contributions }, false) := by
  unfold Owner.takeReport
  rw [if_neg some, if_pos room]

/-- A report of a new station in a full list. -/
theorem takeReport_full (h : Ascends (·.station.val) o.contributions) (some : c.blocks ≠ 0)
    (new : o.contributions.any (·.station == c.station) = false)
    (full : o.contributions.length = 6) (mem : m ∈ o.contributions)
    (least : ∀ d ∈ o.contributions, m.blocks < d.blocks ∨
      (m.blocks = d.blocks ∧ m.station ≤ d.station)) :
    o.takeReport c = ({ o with
      overflow := true
      contributions := if m.blocks < c.blocks then
        joined c (o.contributions.filter (·.station != m.station)) else o.contributions },
      true) := by
  have smallest : smallestContribution o.contributions = .some m :=
    (smallestContribution_eq _).trans (firstLeast_eq h mem least)
  unfold Owner.takeReport
  rw [if_neg some, if_neg (by rw [new, full]; decide), smallest]
  dsimp only
  split
  · rw [putContribution_joined (h.filter _)]
  · rfl

/-! ### A USAGE entry (R8) -/

theorem usageEntry_unknown (h : (s.peer i).state = .forgetting ∨ s.findOwner id = none) :
    s.usageEntry i g (id, blocks) = s := by
  unfold State.usageEntry
  split
  · rfl
  · rename_i live
    rw [h.resolve_left live]

/-- What a USAGE entry leaves of a station that is not FORGETTING and of an owner with a record. -/
theorem usageEntry_found (live : (s.peer i).state ≠ .forgetting) (found : s.findOwner id = some o) :
    let c : Contribution := { station := i, blocks, generation := g }
    let t := s.usageEntry i g (id, blocks)
    OthersKept id s t ∧ t.findOwner id = some (s.reevaluate (o.takeReport c).1) ∧
      ((o.takeReport c).2 = false → t.port = s.port) ∧
      ((o.takeReport c).2 = true → Raised s t .viewOverflow id.toNat) := by
  intro c t
  let w := s.setOwners (putOwner (s.reevaluate (o.takeReport c).1) s.owners)
  have run : t = if (o.takeReport c).2 then w.raise .viewOverflow id.toNat else w := by
    change s.usageEntry i g (id, blocks) = _
    unfold State.usageEntry
    rw [if_neg live, found]
  have key : (s.reevaluate (o.takeReport c).1).id = id := by
    rw [reevaluate_id, takeReport_id, findOwner_id s found]
  have owners : t.owners = w.owners := by
    rw [run]
    split <;> rfl
  refine ⟨fun x other => ?_, ?_, fun quiet => ?_, fun loud => ?_⟩
  · unfold State.findOwner
    rw [owners]
    exact find_putOwner_other _ _ (by rwa [key])
  · unfold State.findOwner
    rw [owners, ← key]
    exact find_putOwner_self ..
  · rw [run, quiet]
    rfl
  · rw [run, loud]
    exact raise_raised ..

theorem usageEntry_entered (ordered : OwnersOrdered s) :
    let t := s.usageEntry i g (id, blocks)
    ∀ o, (s.peer i).state ≠ .forgetting → s.findOwner id = some o →
      let report : Contribution := { station := i, blocks, generation := g }
      ChangesOnly [.owners, .port] s t ∧ OthersKept id s t ∧
      (blocks = 0 → t.port = s.port ∧ t.findOwner id = some (s.reevaluate { o with
        contributions := o.contributions.filter (·.station != i), overflow := false })) ∧
      (blocks ≠ 0 → o.contributions.any (·.station == i) = true →
        t.port = s.port ∧ t.findOwner id = some (s.reevaluate { o with
          contributions := o.contributions.map fun c =>
            if c.station = i then report else c })) ∧
      (blocks ≠ 0 → o.contributions.any (·.station == i) = false →
        (o.contributions.length < 6 → t.port = s.port ∧
          t.findOwner id = some (s.reevaluate { o with
            contributions := joined report o.contributions })) ∧
        ∀ m ∈ o.contributions, o.contributions.length = 6 →
          (∀ c ∈ o.contributions, m.blocks < c.blocks ∨
            (m.blocks = c.blocks ∧ m.station ≤ c.station)) →
          Raised s t .viewOverflow id.toNat ∧
          t.findOwner id = some (s.reevaluate { o with
            overflow := true
            contributions := if m.blocks < blocks then
              joined report (o.contributions.filter (·.station != m.station))
              else o.contributions })) := by
  intro t o live found report
  have ascends : Ascends (·.station.val) o.contributions :=
    (recordOk_of_mem ordered (findOwner_mem found)).2.1
  obtain ⟨others, entered, quiet, loud⟩ :=
    usageEntry_found (g := g) (blocks := blocks) live found
  have silent {p : Owner} (e : o.takeReport report = (p, false)) :
      t.port = s.port ∧ t.findOwner id = some (s.reevaluate p) := by
    rw [e] at quiet entered
    exact ⟨quiet rfl, entered⟩
  refine ⟨usageEntry_changes .., others, fun zero => silent (takeReport_zero zero),
    fun nonzero any => silent ?_, fun nonzero new => ⟨fun room => silent ?_,
      fun m mem full least => ?_⟩⟩
  · rw [takeReport_put nonzero (.inl any), putContribution_of_any ascends any]
  · rw [takeReport_put nonzero (.inr room), putContribution_joined ascends]
  · have e := takeReport_full (c := report) ascends nonzero new full mem least
    rw [e] at loud entered
    exact ⟨loud rfl, entered⟩

/-! ### The frames as received (R58, R61) -/

/-- A frame that passes the three checks and comes from a peer. -/
theorem frame_heard {burst : Bytes} {f : Frame} (released : s.rst = false)
    (on : s.link.state ≠ .off) (long : 5 ≤ burst.length) (frame : frameOf burst = f)
    (length : f.lengthOk burst.length = true) (crc : crcOk burst = true)
    (fields : f.fieldsOk = true) (source : f.source = i.val) (foreign : i ≠ s.station) :
    exec (.frameReceived burst) s = .next (s.peerFrame i f burst) := by
  change execFrameReceived burst s = _
  unfold execFrameReceived whenReleased
  dsimp only
  rw [if_neg (by simp [released])]
  have other : f.source ≠ s.station := by
    rw [source]
    exact fun e => foreign (Fin.ext e)
  have near : f.source < 16 := source ▸ i.isLt
  have index : (⟨f.source, near⟩ : Fin 16) = i := Fin.ext source
  rw [if_neg (by rintro (off | short); exacts [on off, by omega]), frame, if_neg (by simp
    [length, crc]), if_neg (by simp [fields]), if_neg other,
    dif_pos near, index]

theorem announce_heard {part : PeerPart} {window : Bool} {backlog share ownerCount : Nat}
    (released : s.rst = false) (on : s.link.state ≠ .off) (foreign : i ≠ s.station)
    (gen : g < 65536) (form : part = .loading ∧ g = 0 ∨ part = .serving ∧ g ≠ 0)
    (hb : backlog < 4294967296) (hs : share < 4294967296) (ho : ownerCount < 65536) :
    let burst := announceBytes i.val g part window backlog share ownerCount
    ((s.peer i).state = .forgetting → exec (.frameReceived burst) s = .next s) ∧
    ((s.peer i).state ≠ .forgetting →
      exec (.frameReceived burst) s = .next (s.putPeer i
        { state := .live, generation := g, part, window, backlog, share, ownerCount,
          heard := some s.time.uptime, announced := true })) := by
  intro burst
  obtain ⟨length, kind, source, generation, state, flag, byBacklog, byShare, byCount, -⟩ :=
    announce_layout i.val g part window backlog share ownerCount
  rw [Nat.mod_eq_of_lt (by omega)] at source
  rw [Nat.mod_eq_of_lt gen] at generation
  rw [Nat.mod_eq_of_lt hb] at byBacklog
  rw [Nat.mod_eq_of_lt hs] at byShare
  rw [Nat.mod_eq_of_lt ho] at byCount
  let f : Frame := { kind := 1, source := i.val, generation := g, fifth := part.code }
  have frame : frameOf burst = f := by
    unfold frameOf
    rw [kind, source, generation, state]
    cases part <;> rfl
  have fields : f.fieldsOk = true := by
    rcases form with ⟨rfl, zero⟩ | ⟨rfl, some⟩
    · simp [f, Frame.fieldsOk, PeerPart.code, zero]
    · simp [f, Frame.fieldsOk, PeerPart.code, some]
  have run := frame_heard (s := s) released on (by rw [length]; decide) frame
    (by rw [length]; rfl) (withCrc16_ok _) fields rfl foreign
  refine ⟨fun forgetting => ?_, fun live => ?_⟩
  · rw [run, State.peerFrame, if_pos forgetting]
  · have entry : (s.peer i).hear f burst s.now =
        { state := .live, generation := g, part, window, backlog, share, ownerCount,
          heard := some s.time.uptime, announced := true } := by
      unfold Peer.hear
      rw [if_pos rfl, flag, byBacklog, byShare, byCount]
      have known : (if f.fifth = 2 then PeerPart.serving else .loading) = part := by
        cases part <;> rfl
      have openFlag : (window.toNat != 0) = window := by cases window <;> rfl
      rw [known, openFlag]
      rfl
    rw [run, State.peerFrame, if_neg live, entry]
    rfl

theorem usageEntriesOf_usageBytes {entries : List (OwnerId × Nat)} {station : Nat}
    (small : ∀ e ∈ entries, e.2 < 4294967296) :
    usageEntriesOf (usageBytes station g entries) entries.length = entries := by
  obtain ⟨-, -, -, -, -, entryAt, -⟩ := usage_layout station g entries
  refine List.ext_getElem (by simp [usageEntriesOf]) fun k lt lt' => ?_
  obtain ⟨owner, used⟩ := entryAt k entries[k].1 entries[k].2 (List.getElem?_eq_getElem lt')
  have range := small _ (List.getElem_mem lt')
  rw [Nat.mod_eq_of_lt range] at used
  simp only [usageEntriesOf, List.getElem_map, List.getElem_range, ownerAt, owner, used,
    BitVec.ofNat_toNat, BitVec.setWidth_eq]

theorem usage_heard {entries : List (OwnerId × Nat)} (released : s.rst = false)
    (on : s.link.state ≠ .off) (foreign : i ≠ s.station) (gen : g < 65536) (serving : g ≠ 0)
    (one : 1 ≤ entries.length) (most : entries.length ≤ 24)
    (small : ∀ e ∈ entries, e.2 < 4294967296) :
    let burst := usageBytes i.val g entries
    ((s.peer i).state = .forgetting → exec (.frameReceived burst) s = .next s) ∧
    ((s.peer i).state ≠ .forgetting →
      exec (.frameReceived burst) s = .next ((entries.foldl
        (fun u e => u.usageEntry i g e)
        (s.putPeer i { s.peer i with
          state := .live, generation := g, heard := some s.time.uptime,
          announced := if (s.peer i).state = .live then (s.peer i).announced else false
          })).flushEvent)) := by
  intro burst
  obtain ⟨length, kind, source, generation, count, -, -⟩ := usage_layout i.val g entries
  rw [Nat.mod_eq_of_lt (by omega)] at source
  rw [Nat.mod_eq_of_lt gen] at generation
  rw [Nat.mod_eq_of_lt (by omega)] at count
  let f : Frame := { kind := 2, source := i.val, generation := g, fifth := entries.length }
  have frame : frameOf burst = f := by
    unfold frameOf
    rw [kind, source, generation, count]
  have run := frame_heard (s := s) (f := f) released on (by rw [length]; omega) frame
    (by rw [length]; simp [f, Frame.lengthOk, one, most]) (withCrc16_ok _)
    (by simp [f, Frame.fieldsOk, serving]) rfl foreign
  refine ⟨fun forgetting => ?_, fun live => ?_⟩
  · rw [run, State.peerFrame, if_pos forgetting]
  · have read : usageEntriesOf burst f.fifth = entries := usageEntriesOf_usageBytes small
    rw [run, State.peerFrame, if_neg live, if_pos rfl, read]
    rfl

/-- Settles O42: an entry through the record it leaves, the frames through their layouts. -/
theorem peerFramesUpdateTheirEntry : Obligations.PeerFramesUpdateTheirEntry := by
  unfold Obligations.PeerFramesUpdateTheirEntry
  refine ⟨fun s i g blocks id ordered => ⟨usageEntry_unknown, usageEntry_entered ordered⟩, ?_⟩
  intro s i g released on foreign gen
  refine ⟨fun part window backlog share count form hb hs ho =>
    announce_heard released on foreign gen form hb hs ho, ?_⟩
  intro entries serving one most small
  exact usage_heard released on foreign gen serving one most small

end Sys2Proof.Proofs

/-! PROOFS. The timer steps of the Owner Table and the reservation table (R7, R17, R28). -/

namespace Sys2Proof.Proofs

open Sys2Proof.Machine Sys2Proof.Safety

variable {s t : State} {o : Owner} {id : OwnerId} {e : Reservation} {slot : Nat}

/-! ### Leases -/

theorem leaseExpiry_absent (released : s.rst = false) (none : s.entryInSlot slot = none) :
    exec (.leaseExpiry slot) s = .next s := by
  change execLeaseExpiry slot s = _
  unfold execLeaseExpiry whenReleased
  dsimp only
  rw [if_neg (by simp [released]), none]

theorem leaseExpiry_early (released : s.rst = false) (found : s.entryInSlot slot = some e)
    (early : s.passed e.lease = false) : exec (.leaseExpiry slot) s = .next s := by
  change execLeaseExpiry slot s = _
  unfold execLeaseExpiry whenReleased
  dsimp only
  rw [if_neg (by simp [released]), found]
  dsimp only
  rw [if_neg (by simp [early])]

theorem leaseExpiry_due (released : s.rst = false) (found : s.entryInSlot slot = some e)
    (due : s.passed e.lease = true) : exec (.leaseExpiry slot) s =
      .next ((s.removeEntry e fun o => o).raise .leaseExpired e.owner.toNat).flushEvent := by
  change execLeaseExpiry slot s = _
  unfold execLeaseExpiry whenReleased
  dsimp only
  rw [if_neg (by simp [released]), found]
  dsimp only
  rw [if_pos due]

/-- What the removal of an entry leaves: its owner's record with the blocks returned (R3). -/
theorem removeEntry_leaves {f : Owner → Owner} (hf : ∀ o, (f o).id = o.id)
    (found : s.findOwner e.owner = some o) :
    let t := s.removeEntry e f
    t.adm = { s.adm with entries := s.adm.entries.filter (·.slot != e.slot) } ∧
      t.findOwner e.owner = some (s.reevaluate (f { o with reserved := o.reserved - e.blocks })) ∧
      OthersKept e.owner s t ∧ ChangesOnly [.owners, .adm] s t := by
  intro t
  let less : Admission := { s.adm with entries := s.adm.entries.filter (·.slot != e.slot) }
  let g : Owner → Owner := fun o => f { o with reserved := o.reserved - e.blocks }
  have same : SameFigures s (s.setAdm less) := .of_changes (by decide) (setAdm_changes s less)
  have touched : t.findOwner e.owner = some ((s.setAdm less).reevaluate (g o)) :=
    findOwner_touchOwner (s.setAdm less) (f := g) found (hf _)
  rw [same.reevaluate] at touched
  have others : OthersKept e.owner (s.setAdm less) t :=
    touchOwner_othersKept (s.setAdm less) (f := g) fun _ => hf _
  exact ⟨(touchOwner_changes (s.setAdm less) e.owner g).2 .adm (by decide), touched, others,
    removeEntry_changes ..⟩

theorem leaseExpiry_leaves (released : s.rst = false) (found : s.entryInSlot slot = some e)
    (due : s.passed e.lease = true) (record : s.findOwner e.owner = some o) :
    ∃ t, exec (.leaseExpiry slot) s = .next t ∧
      t.adm = { s.adm with entries := s.adm.entries.filter (·.slot != e.slot) } ∧
      t.findOwner e.owner = some (s.reevaluate { o with reserved := o.reserved - e.blocks }) ∧
      OthersKept e.owner s t ∧ Raised s t .leaseExpired e.owner.toNat ∧
      ChangesOnly [.owners, .adm, .port] s t := by
  obtain ⟨adm, touched, others, removed⟩ :=
    removeEntry_leaves (f := fun o => o) (fun _ => rfl) record
  have behind : ChangesOnly [.port] (s.removeEntry e fun o => o)
      ((s.removeEntry e fun o => o).raise .leaseExpired e.owner.toNat).flushEvent :=
    (raise_changes ..).trans (flushEvent_changes _)
  refine ⟨_, leaseExpiry_due released found due, (behind.2 .adm (by decide)).trans adm,
    (findOwner_of_changes (by decide) behind _).trans touched,
    fun x hx => (findOwner_of_changes (by decide) behind x).trans (others x hx), ?_,
    (within (by decide) removed).trans (within (by decide) behind)⟩
  have raised := raise_raised (s := s.removeEntry e fun o => o) .leaseExpired e.owner.toNat
  have port : (s.removeEntry e fun o => o).port = s.port := removed.2 .port (by decide)
  unfold Raised at raised ⊢
  rw [events_flushEvent, raised, port]

/-! ### Warm-up and grace -/

theorem ownerTimers_absent (released : s.rst = false) (none : s.findOwner id = none) :
    exec (.warmUpEnd id) s = .next s ∧ exec (.graceDeadlineExpiry id) s = .next s := by
  constructor
  · change execWarmUpEnd id s = _
    unfold execWarmUpEnd whenReleased
    dsimp only
    rw [if_neg (by simp [released]), none]
  · change execGraceDeadlineExpiry id s = _
    unfold execGraceDeadlineExpiry whenReleased
    dsimp only
    rw [if_neg (by simp [released]), none]

theorem warmUpEnd_found (released : s.rst = false) (found : s.findOwner id = some o) :
    exec (.warmUpEnd id) s = .next
      (if s.passed o.warmUp then s.touchOwner id fun o => { o with warmUp := none } else s) := by
  change execWarmUpEnd id s = _
  unfold execWarmUpEnd whenReleased
  dsimp only
  rw [if_neg (by simp [released]), found]

theorem graceDeadlineExpiry_found (released : s.rst = false) (found : s.findOwner id = some o) :
    exec (.graceDeadlineExpiry id) s = .next
      (if s.passed o.grace = true ∧ o.graceTaken = false then
        s.touchOwner id fun o => { o with graceTaken := true } else s) := by
  change execGraceDeadlineExpiry id s = _
  unfold execGraceDeadlineExpiry whenReleased
  dsimp only
  rw [if_neg (by simp [released]), found]
  simp only [Bool.not_eq_eq_eq_not, Bool.not_true]

/-- A change of a record that stands, as a step of its own. -/
theorem touched_step {c : Instr} {f : Owner → Owner}
    (run : exec c s = .next (s.touchOwner id f)) (found : s.findOwner id = some o)
    (hf : ∀ o, (f o).id = o.id) :
    ∃ t, exec c s = .next t ∧ t.findOwner id = some (s.reevaluate (f o)) ∧ OthersKept id s t ∧
      ChangesOnly [.owners] s t :=
  ⟨_, run, findOwner_touchOwner s found (hf o), touchOwner_othersKept s hf, touchOwner_changes ..⟩

theorem ownerTimers_found (released : s.rst = false) (found : s.findOwner id = some o) :
    (s.passed o.warmUp = true → ∃ t, exec (.warmUpEnd id) s = .next t ∧
      t.findOwner id = some (s.reevaluate { o with warmUp := none }) ∧ OthersKept id s t ∧
      ChangesOnly [.owners] s t) ∧
    (s.passed o.warmUp = false → exec (.warmUpEnd id) s = .next s) ∧
    (s.passed o.grace = true → o.graceTaken = false →
      ∃ t, exec (.graceDeadlineExpiry id) s = .next t ∧
        t.findOwner id = some (s.reevaluate { o with graceTaken := true }) ∧
        OthersKept id s t ∧ ChangesOnly [.owners] s t) ∧
    (s.passed o.grace = false ∨ o.graceTaken = true →
      exec (.graceDeadlineExpiry id) s = .next s) := by
  have warm := warmUpEnd_found released found
  have grace := graceDeadlineExpiry_found released found
  refine ⟨fun due => ?_, fun early => ?_, fun due fresh => ?_, fun not => ?_⟩
  · rw [if_pos due] at warm
    exact touched_step warm found fun _ => rfl
  · rw [warm, early]
    rfl
  · rw [if_pos ⟨due, fresh⟩] at grace
    exact touched_step grace found fun _ => rfl
  · rw [grace, if_neg]
    rintro ⟨due, fresh⟩
    rcases not with early | taken
    · rw [early] at due
      cases due
    · rw [taken] at fresh
      cases fresh

end Sys2Proof.Proofs

/-! PROOFS. A record made in a full Owner Table (R5, R6): which record gives way, and what an
admission leaves of the two. -/

namespace Sys2Proof.Proofs

open Sys2Proof.Machine Sys2Proof.Safety

variable {s t w : State} {o u v x : Owner} {id : OwnerId} {cls : Fin 8} {n vol : Nat}
  {origin : Origin}

/-! ### The victim -/

theorem evictionVictim_of_isVictim (ordered : OwnersOrdered s) (h : IsVictim s v) :
    s.evictionVictim = some v := by
  obtain ⟨mem, evictable, least⟩ := h
  rw [evictionVictim_eq]
  refine firstLeast_eq (key := (·.id.toNat)) ((ids_ascend ordered).filter _)
    (List.mem_filter.mpr ⟨mem, evictable_iff.mpr evictable⟩) fun y hy => ?_
  obtain ⟨memY, may⟩ := List.mem_filter.mp hy
  exact (least y memY (evictable_iff.mp may)).imp id fun ⟨eq, le⟩ => ⟨eq, BitVec.le_def.mp le⟩

theorem evictionVictim_none (h : ∀ x ∈ s.owners, ¬Evictable s x) : s.evictionVictim = none := by
  have empty : s.owners.filter s.evictable = [] :=
    List.filter_eq_nil_iff.mpr fun x hx may => h x hx (evictable_iff.mp may)
  rw [evictionVictim_eq, empty]
  rfl

/-! ### The record in the victim's place -/

/-- The table in which a record has taken the victim's place. -/
def inPlaceOf (s : State) (v o : Owner) : List Owner := putOwner o (s.owners.filter (·.id != v.id))

/-- In an ascending list one element has the key of a member. -/
theorem length_filter_ne {α : Type} {key : α → Nat} {l : List α} {x : α} (h : Ascends key l)
    (hx : x ∈ l) : (l.filter (key · != key x)).length + 1 = l.length := by
  obtain ⟨a, b, rfl⟩ := List.append_of_mem hx
  obtain ⟨-, right, across⟩ := List.pairwise_append.mp h
  obtain ⟨after, -⟩ := List.pairwise_cons.mp right
  have before : a.filter (key · != key x) = a := List.filter_eq_self.mpr fun y hy => by
    simpa using (across y hy x (by simp)).ne
  have behind : b.filter (key · != key x) = b := List.filter_eq_self.mpr fun y hy => by
    simpa using (after y hy).ne'
  rw [List.filter_append, before, List.filter_cons_of_neg (by simp), behind]
  simp only [List.length_append, List.length_cons]
  omega

theorem length_inPlaceOf (ordered : OwnersOrdered s) (mem : v ∈ s.owners)
    (new : s.findOwner o.id = none) : (inPlaceOf s v o).length = s.owners.length := by
  have less := length_filter_ne (ids_ascend ordered) mem
  have keys : s.owners.filter (·.id.toNat != v.id.toNat) = s.owners.filter (·.id != v.id) :=
    List.filter_congr fun y _ => by
      rw [Bool.eq_iff_iff, bne_iff_ne, bne_iff_ne, ne_eq, BitVec.toNat_inj]
  rw [keys] at less
  rw [← less, inPlaceOf, putOwner_eq]
  exact length_putBy_of_new fun y hy eq =>
    findOwner_none_iff.mp new y (List.mem_of_mem_filter hy) (BitVec.eq_of_toNat_eq eq)

theorem replaced_of_owners (ordered : OwnersOrdered s) (mem : v ∈ s.owners)
    (new : s.findOwner o.id = none) (owners : t.owners = inPlaceOf s v o) : Replaced s t v o := by
  have differ : v.id ≠ o.id := findOwner_none_iff.mp new v mem
  have find (id : OwnerId) : t.findOwner id = (inPlaceOf s v o).find? (·.id == id) := by
    rw [State.findOwner, owners]
  refine ⟨?_, ?_, ?_, fun id gone come => ?_⟩
  · rw [find, inPlaceOf, find_putOwner_other _ _ differ]
    simp
  · rw [find]
    exact find_putOwner_self ..
  · rw [owners]
    exact length_inPlaceOf ordered mem new
  · rw [find, inPlaceOf, find_putOwner_other _ _ come, List.find?_filter]
    refine congrArg (fun p => s.owners.find? p) (funext fun y => ?_)
    by_cases here : y.id = id
    · simp [here, gone]
    · simp [here]

/-- A record put in the place of one of the same ID that was just put. -/
theorem putOwner_putOwner (h : x.id = u.id) (l : List Owner) :
    putOwner x (putOwner u l) = putOwner x l := by
  induction l with
  | nil => simp [putOwner, h]
  | cons y ys ih =>
    by_cases same : u.id = y.id
    · simp [putOwner, h, same]
    · by_cases lt : u.id < y.id
      · simp [putOwner, h, same, lt]
      · simp [putOwner, h, same, lt, ih]

theorem touchOwner_inPlaceOf {f : Owner → Owner} (owners : w.owners = inPlaceOf s v u)
    (hid : u.id = id) (hf : (f u).id = u.id) :
    (w.touchOwner id f).owners = inPlaceOf s v (w.reevaluate (f u)) := by
  have found : w.findOwner id = some u := by
    rw [State.findOwner, owners, ← hid]
    exact find_putOwner_self ..
  unfold State.touchOwner
  rw [found]
  dsimp only
  rw [State.setOwners_owners, owners]
  exact putOwner_putOwner (by rw [reevaluate_id, hf]) _

theorem touchOwner_absent {f : Owner → Owner} (new : s.findOwner id = none) :
    s.touchOwner id f = s := by
  unfold State.touchOwner
  rw [new]

/-! ### Creation in a full table -/

theorem addOwner_evicts (ordered : OwnersOrdered s) (full : s.owners.length = 4096)
    (victim : IsVictim s v) : s.addOwner o = some (s.setOwners (inPlaceOf s v o)) := by
  unfold State.addOwner
  rw [full, if_neg (by decide), evictionVictim_of_isVictim ordered victim]
  rfl

theorem addOwner_none (full : s.owners.length = 4096) (h : ∀ x ∈ s.owners, ¬Evictable s x) :
    s.addOwner o = none := by
  unfold State.addOwner
  rw [full, if_neg (by decide), evictionVictim_none h]

theorem ensureOwner_new (new : s.findOwner id = none) :
    s.ensureOwner id cls = s.addOwner (newRecord s id cls) := by
  unfold State.ensureOwner
  rw [new]
  rfl

/-! ### Admission in a full table -/

@[simp] theorem view_newRecord : (newRecord s id cls).view = 0 := rfl

theorem admissionStatus_new (hard : n ≤ (s.effectiveLimits (newRecord s id cls)).hard)
    (small : n ≤ 4294967295) : s.admissionStatus (newRecord s id cls) n =
      if (s.effectiveLimits (newRecord s id cls)).soft < n then .soft else .ok := by
  have after : min ((newRecord s id cls).view + n) maxCount = n := by
    rw [view_newRecord, Nat.zero_add]
    exact Nat.min_eq_left small
  have room : ¬ (newRecord s id cls).reserved + n > maxCount := by
    rw [show (newRecord s id cls).reserved = 0 from rfl, Nat.zero_add]
    exact Nat.not_lt.mpr small
  unfold State.admissionStatus
  dsimp only
  rw [after, if_neg (Nat.not_lt.mpr hard), if_neg (fun h => by cases h.2), if_neg room]

/-- What an admission of an owner without a record decides on. -/
def newDecision (s : State) (id : OwnerId) (cls : Fin 8) (status : Status) (handle : Nat)
    (lease : Option Nat) : Decision :=
  let limits := s.effectiveLimits (newRecord s id cls)
  { status, handle, lease, view := 0, soft := limits.soft, hard := limits.hard }

theorem admitBlocks_new (new : s.findOwner id = none)
    (hard : n ≤ (s.effectiveLimits (newRecord s id cls)).hard) (small : n ≤ 4294967295) :
    s.admitBlocks id cls n vol origin = match s.grant id cls n vol origin with
      | none => (newDecision s id cls .full 0 none, s)
      | some (e, w) => (newDecision s id cls
          (if (s.effectiveLimits (newRecord s id cls)).soft < n then .soft else .ok)
          e.handle e.lease, w) := by
  have status := admissionStatus_new hard small
  have record : (s.findOwner id).getD (s.freshOwner id cls) = newRecord s id cls := by
    rw [new]
    rfl
  have admits : (if (s.effectiveLimits (newRecord s id cls)).soft < n then Status.soft else .ok) =
      .ok ∨ (if (s.effectiveLimits (newRecord s id cls)).soft < n then Status.soft else .ok) =
      .soft := by
    split
    · exact .inr rfl
    · exact .inl rfl
  unfold State.admitBlocks
  dsimp only
  rw [touchOwner_absent new, record, status, if_pos admits]
  cases s.grant id cls n vol origin <;> rfl

theorem grant_none (none : s.ensureOwner id cls = none) :
    s.grant id cls n vol origin = .none := by
  unfold State.grant
  dsimp only
  split
  · rw [none]
  · rfl

theorem grant_made {l : List Owner} (made : s.ensureOwner id cls = some (s.setOwners l))
    (room : lowestFreeSlot 0 s.adm.entries < 512) :
    s.grant id cls n vol origin = some (grantedEntry s id cls n vol origin,
      ((s.setOwners l).setAdm
        { entries := putEntry (grantedEntry s id cls n vol origin) s.adm.entries
          handleCounter := (grantedEntry s id cls n vol origin).handle }).touchOwner id
        fun o => { o with reserved := o.reserved + n, lastCharge := s.now }) := by
  unfold State.grant
  dsimp only
  rw [if_pos room, made]
  rfl

/-- An admission of an owner without a record, to which the victim gives way (R31). -/
theorem admitBlocks_evicts (ordered : OwnersOrdered s) (full : s.owners.length = 4096)
    (new : s.findOwner id = none) (hard : n ≤ (s.effectiveLimits (newRecord s id cls)).hard)
    (small : n ≤ 4294967295) (room : lowestFreeSlot 0 s.adm.entries < 512)
    (victim : IsVictim s v) :
    let e := grantedEntry s id cls n vol origin
    ∃ w, s.admitBlocks id cls n vol origin = (newDecision s id cls
        (if (s.effectiveLimits (newRecord s id cls)).soft < n then .soft else .ok)
        e.handle e.lease, w) ∧
      w.adm = { entries := putEntry e s.adm.entries, handleCounter := e.handle } ∧
      w.owners = inPlaceOf s v (s.reevaluate { newRecord s id cls with reserved := n }) ∧
      ChangesOnly [.owners, .adm] s w := by
  intro e
  have made : s.ensureOwner id cls = some (s.setOwners (inPlaceOf s v (newRecord s id cls))) :=
    (ensureOwner_new new).trans (addOwner_evicts ordered full victim)
  let base := (s.setOwners (inPlaceOf s v (newRecord s id cls))).setAdm
    { entries := putEntry e s.adm.entries, handleCounter := e.handle }
  let f : Owner → Owner := fun o => { o with reserved := o.reserved + n, lastCharge := s.now }
  have only : ChangesOnly [.owners, .adm] s base :=
    andThen (by decide) (within (by decide) (setOwners_changes ..)) (setAdm_changes ..)
  have same : SameFigures s base := .of_changes (by decide) only
  have touched := touchOwner_inPlaceOf (w := base) (f := f) (id := id) rfl rfl rfl
  have record : f (newRecord s id cls) = { newRecord s id cls with reserved := n } := by
    simp [f, newRecord, State.now]
  rw [same.reevaluate, record] at touched
  refine ⟨base.touchOwner id f, ?_, (touchOwner_changes ..).2 .adm (by decide), touched,
    andThen (by decide) only (touchOwner_changes ..)⟩
  rw [admitBlocks_new new hard small, grant_made made room]

/-- With nothing evictable the admission is refused, and nothing changes (R30). -/
theorem admitBlocks_full (full : s.owners.length = 4096) (new : s.findOwner id = none)
    (hard : n ≤ (s.effectiveLimits (newRecord s id cls)).hard) (small : n ≤ 4294967295)
    (fixed : ∀ x ∈ s.owners, ¬Evictable s x) :
    s.admitBlocks id cls n vol origin = (newDecision s id cls .full 0 none, s) := by
  rw [admitBlocks_new new hard small,
    grant_none ((ensureOwner_new new).trans (addOwner_none full fixed))]

theorem quotaFor_new (new : s.findOwner id = none) :
    s.quotaFor id cls = s.quotaState (newRecord s id cls) := by
  unfold State.quotaFor
  rw [new]
  rfl

theorem quotaFor_found (found : s.findOwner id = some o) : s.quotaFor id cls = s.quotaState o := by
  unfold State.quotaFor
  rw [found]
  rfl

end Sys2Proof.Proofs

/-! PROOFS. The requests that make a record in a full Owner Table: RESERVE, LOAD_OWNER, COMMIT and
RESTORE_GO (R22, R31, R39, R43); settles O16. -/

namespace Sys2Proof.Proofs

open Sys2Proof.Machine Sys2Proof.Safety

variable {s t w : State} {o v : Owner} {id : OwnerId} {cls : Fin 8} {n tag : Nat}
  {l : List Block} {c : Fin 4} {x : Context}

/-! ### RESERVE -/

theorem reserveRequest_tracked {q : ReserveReq} (valid : invalidOwner q.owner = false)
    (volume : q.volume ≠ 0) (low : 1 ≤ q.n) (high : q.n ≤ 16777215)
    (found : (s.findVol q.volume).isSome = true) (tracked : s.classOf q.owner = some cls)
    {d : Decision} (decided : s.admitBlocks q.owner cls q.n q.volume .write = (d, w)) :
    reserveRequest tag q s = w.answer 1 tag d.status
      (.reserve d.handle d.lease d.view d.soft d.hard (w.quotaFor q.owner cls)) := by
  unfold reserveRequest
  rw [if_neg (by simp [valid, volume, maxRequestBlocks]; omega), Option.isNone_eq_false_iff.mpr
    found,
    if_neg (by decide), tracked]
  dsimp only
  rw [decided]

/-- A RESERVE whose owner has no record, in a full table. -/
theorem reserve_full {r : Bytes} {q : ReserveReq} (ordered : OwnersOrdered s)
    (full : s.owners.length = 4096) (takes : Takes s 1 r) (parsed : parseReserve r = some q)
    (valid : invalidOwner q.owner = false) (volume : q.volume ≠ 0) (low : 1 ≤ q.n)
    (high : q.n ≤ 16777215) (found : (s.findVol q.volume).isSome = true)
    (tracked : s.classOf q.owner = some cls) (new : s.findOwner q.owner = none) :
    let slot := lowestFreeSlot 0 s.adm.entries
    let handle := nextHandle (s.adm.entries.map (·.handle)) 513 s.adm.handleCounter
    let u := newRecord s q.owner cls
    let limits := s.effectiveLimits u
    let lease := s.time.uptime + (s.classRec cls).lease * 1000
    let o := s.reevaluate { u with reserved := q.n }
    q.n ≤ limits.hard → slot < 512 →
    (∀ v, IsVictim s v → ∃ t, exec .reserve s = .next t ∧ Replaced s t v o ∧
      t.adm = {
        entries := putEntry { slot, handle, owner := q.owner, blocks := q.n, volume := q.volume,
                              lease := some lease, origin := .write,
                              grantTime := s.time.uptime } s.adm.entries
        handleCounter := handle } ∧
      Answered s t (reply 1 (recordTag r) (if limits.soft < q.n then .soft else .ok)
        (.reserve handle (some lease) 0 limits.soft limits.hard (s.quotaState o))) ∧
      ChangesOnly [.owners, .adm, .port] s t) ∧
    ((∀ x ∈ s.owners, ¬Evictable s x) → ∃ t, exec .reserve s = .next t ∧
      ChangesOnly [.port] s t ∧ Answered s t (reply 1 (recordTag r) .full
        (.reserve 0 none 0 limits.soft limits.hard (s.quotaState u)))) := by
  intro slot handle u limits lease o hard room
  have small : q.n ≤ 4294967295 := by omega
  have run : exec .reserve s = .next (reserveRequest (recordTag r) q s.dropHead) :=
    whenReleased_taken takes parsed
  refine ⟨fun v victim => ?_, fun fixed => ?_⟩
  · obtain ⟨w, decided, adm, owners, only⟩ := admitBlocks_evicts (s := s.dropHead) (vol := q.volume)
      (origin := .write) (ownersOrdered_congr rfl rfl ordered) full new hard small room victim
    have answered := answer_changes w 1 (recordTag r) (if limits.soft < q.n then .soft else .ok)
      (.reserve handle (some lease) 0 limits.soft limits.hard (w.quotaFor q.owner cls))
    have key : o.id = q.owner := reevaluate_id ..
    have replaced (t : State) (h : t.owners = w.owners) : Replaced s t v o :=
      replaced_of_owners ordered victim.1 (key ▸ new) (h.trans owners)
    have same : SameFigures s w := .trans (.of_changes (by decide) (dropHead_changes s))
      (.of_changes (by decide) only)
    have quota : w.quotaFor q.owner cls = s.quotaState o :=
      (quotaFor_found (key ▸ (replaced w rfl).2.1)).trans (same.quotaState o)
    rw [reserveRequest_tracked (s := s.dropHead) valid volume low high found tracked decided] at run
    refine ⟨_, run, replaced _ (answered.2 .owners (by decide)),
      (answered.2 .adm (by decide)).trans adm, ?_, ?_⟩
    · rw [quota]
      exact answered_alone (.of_changes only (by decide))
    · exact andThen (by decide) (andThen (by decide) (within (by decide) (dropHead_changes s)) only)
        answered
  · have decided := admitBlocks_full (s := s.dropHead) (vol := q.volume) (origin := .write) full new
      hard small fixed
    rw [reserveRequest_tracked (s := s.dropHead) valid volume low high found tracked decided] at run
    refine ⟨_, run, refused_changes, ?_⟩
    rw [quotaFor_new (s := s.dropHead) new]
    exact answered_alone (.refl _)

/-! ### LOAD_OWNER -/

theorem loadOwnerRequest_full {q : LoadOwnerReq} (valid : invalidOwner q.owner = false)
    (present : q.overridePresent ≤ 1) (tracked : s.classOf q.owner = some cls)
    (none : s.loadOwner q cls = none) :
    loadOwnerRequest tag q s = s.answer 26 tag .full (.loadOwner) := by
  unfold loadOwnerRequest
  rw [if_neg (by simp [valid, present]), tracked]
  dsimp only
  rw [none]

/-- A LOAD_OWNER whose owner has no record, in a full table. -/
theorem loadOwner_full {r : Bytes} {q : LoadOwnerReq} (ordered : OwnersOrdered s)
    (full : s.owners.length = 4096) (takes : Takes s 26 r) (parsed : parseLoadOwner r = some q)
    (valid : invalidOwner q.owner = false) (present : q.overridePresent ≤ 1)
    (tracked : s.classOf q.owner = some cls) (new : s.findOwner q.owner = none) :
    let o := s.reevaluate { newRecord s q.owner cls with
      used := q.used, warmUp := none, reportTime := none,
      override := if q.overridePresent = 1 then some { soft := q.soft, hard := q.hard }
        else none }
    (∀ v, IsVictim s v → ∃ t, exec .loadOwner s = .next t ∧ Replaced s t v o ∧
      Answered s t (reply 26 (recordTag r) .ok (.loadOwner cls.val 4096)) ∧
      ChangesOnly [.owners, .port] s t) ∧
    ((∀ x ∈ s.owners, ¬Evictable s x) → ∃ t, exec .loadOwner s = .next t ∧
      ChangesOnly [.port] s t ∧ Answered s t (reply 26 (recordTag r) .full (.loadOwner))) := by
  intro o
  have run : exec .loadOwner s = .next (loadOwnerRequest (recordTag r) q s.dropHead) :=
    whenReleased_taken takes parsed
  have joins : s.dropHead.loadOwner q cls = s.dropHead.addOwner o := by
    unfold State.loadOwner
    rw [show s.dropHead.findOwner q.owner = none from new]
    rfl
  refine ⟨fun v victim => ?_, fun fixed => ?_⟩
  · have loaded := joins.trans
      (addOwner_evicts (s := s.dropHead) (ownersOrdered_congr rfl rfl ordered) full victim)
    let w := s.dropHead.setOwners (inPlaceOf s.dropHead v o)
    have key : o.id = q.owner := reevaluate_id ..
    have replaced (t : State) (h : t.owners = w.owners) : Replaced s t v o :=
      replaced_of_owners ordered victim.1 (key ▸ new) h
    have found : w.findOwner q.owner = some o := key ▸ (replaced w rfl).2.1
    rw [loadOwnerRequest_ok (s := s.dropHead) (w := w) valid present tracked loaded found] at run
    obtain ⟨t, ran, owners, changes, answered⟩ :=
      loadOwner_answered run (setOwners_changes ..) (congrArg Fin.val (reevaluate_cls ..))
    have length : t.owners.length = 4096 := (replaced t owners).2.2.1.trans full
    rw [length] at answered
    exact ⟨t, ran, replaced t owners, answered, changes⟩
  · have none := joins.trans (addOwner_none (s := s.dropHead) full fixed)
    rw [loadOwnerRequest_full (s := s.dropHead) valid present tracked none] at run
    exact ⟨_, run, refused_changes, answered_alone (.refl _)⟩

/-! ### COMMIT without an entry -/

/-- A change of local used as the USAGE slot sees it (R54, R55). -/
theorem usedChanged_eq (found : s.findOwner id = some o) :
    s.usedChanged id n = if o.used ≠ n ∧ isReportDue s o = true then
      s.setLink (takeLink (composeLink (s.part == .serving) (usageChoice s) s.link)) else s := by
  unfold State.usedChanged
  rw [found, ← reportDue_eq]
  dsimp only
  rw [composeUsage_eq, takeSlot_eq]
  rfl

theorem usedChanged_sameFigures (s : State) (id : OwnerId) (n : Nat) :
    SameFigures s (s.usedChanged id n) := by
  have only := usedChanged_changes s id n
  refine ⟨only.1.2.2.2.2.1, only.2 .time (by decide), ?_⟩
  cases found : s.findOwner id with
  | none =>
    unfold State.usedChanged
    rw [found]
  | some o =>
    rw [usedChanged_eq found]
    split
    · let composed := composeLink (s.part == .serving) (usageChoice s) s.link
      have taken := slots_keep true [] composed (takeLink composed) (by simp)
      have made := slots_keep (s.part == .serving) (usageChoice s) s.link composed (by simp
        [composed])
      exact taken.2.2.2.trans made.2.2.2
    · rfl

/-- LATE_COMMIT stands in the summary as it stood. -/
def SameLate (s t : State) : Prop :=
  t.port.events[EventKind.index .lateCommit] = s.port.events[EventKind.index .lateCommit]

theorem SameLate.trans {u : State} (h : SameLate s t) (k : SameLate t u) : SameLate s u :=
  Eq.trans k h

theorem SameLate.of_port (h : t.port = s.port) : SameLate s t := by
  unfold SameLate
  rw [h]

theorem sameLate_flushEvent (s : State) : SameLate s s.flushEvent := by
  unfold SameLate
  rw [events_flushEvent]

theorem sameLate_answer (s : State) (kind tag : Nat) (st : Status) (b : Body) :
    SameLate s (s.answer kind tag st b) :=
  SameLate.trans (t := s.place _) rfl (sameLate_flushEvent _)

theorem sameLate_appendExtent (s : State) (volume start length : Nat) :
    SameLate s (s.appendExtent volume start length) := by
  unfold State.appendExtent
  split
  · rfl
  split
  · rfl
  unfold State.appendCurrent
  split
  · rfl
  split
  · rfl
  dsimp only
  split
  · rfl
  · exact events_raise_other _ (by decide) _

/-- A ticket leaves the events, the share and the AT_RISK marks. -/
theorem issueTicket_keeps {i : Fin 8} {v : Volume} (found : s.vol i = some v) :
    (s.issueTicket i v).port.events = s.port.events ∧
      (s.issueTicket i v).dup.share = s.dup.share ∧
      ∀ j, ((s.issueTicket i v).vol j).map (·.atRisk) = (s.vol j).map (·.atRisk) := by
  unfold State.issueTicket
  split
  · exact ⟨rfl, rfl, fun _ => rfl⟩
  · refine ⟨rfl, rfl, fun j => ?_⟩
    by_cases here : j = i
    · subst here
      exact (congrArg _ (vol_putVol_self ..)).trans (by rw [found]; rfl)
    · exact congrArg _ (vol_putVol_other _ here _)

/-- An issue pass leaves the events, the share and the AT_RISK marks. -/
theorem issuePass_keeps (s : State) : s.issuePass.port.events = s.port.events ∧
    s.issuePass.dup.share = s.dup.share ∧
    ∀ j, (s.issuePass.vol j).map (·.atRisk) = (s.vol j).map (·.atRisk) := by
  unfold State.issuePass
  generalize 16 = rounds
  induction rounds generalizing s with
  | zero => exact ⟨rfl, rfl, fun _ => rfl⟩
  | succ rounds ih =>
    unfold issueRounds
    split
    · exact ⟨rfl, rfl, fun _ => rfl⟩
    split
    · rename_i i v head _
      obtain ⟨events, share, risk⟩ := issueTicket_keeps (head_found head)
      obtain ⟨events', share', risk'⟩ := ih (s.issueTicket i v)
      exact ⟨events'.trans events, share'.trans share, fun j => (risk' j).trans (risk j)⟩
    · exact ⟨rfl, rfl, fun _ => rfl⟩

theorem sameLate_finishCommit (s : State) (tag : Nat) (q : CommitReq) (st : Status)
    (charged used : Nat) (quota : QuotaState) :
    SameLate s (s.finishCommit tag q st charged used quota) := by
  unfold State.finishCommit
  refine (sameLate_appendExtent s q.volume q.start q.length).trans
    ((sameLate_answer _ 3 tag st (.commit charged used quota)).trans ?_)
  dsimp only
  unfold State.issueIfFreed
  split
  · unfold SameLate
    rw [(issuePass_keeps _).1]
  · rfl

theorem finishCommit_answered {q : CommitReq} {st : Status} {charged used : Nat}
  {quota : QuotaState}
    (quiet : Quiet s.dropHead w) :
    Answered s (w.finishCommit tag q st charged used quota)
      (reply 3 tag st (.commit charged used quota)) :=
  answered_of_quiet (quiet.trans (appendExtent_quiet ..)) (issueIfFreed_grows ..)

theorem commitRequest_late {q : CommitReq} (valid : invalidOwner q.owner = false)
    (high : q.m ≤ 16777215) (extent : s.extentCheck q = none)
    (late : q.handle = 0 ∨ s.entryByHandle q.handle = none) :
    commitRequest tag q s = commitLate tag q s := by
  have none : (if q.handle = 0 then none else s.entryByHandle q.handle) = none := by
    split
    · rfl
    · rename_i some
      exact late.resolve_left some
  unfold commitRequest
  rw [if_neg (by simp [valid, maxRequestBlocks]; omega), extent]
  dsimp only
  rw [none]

/-- A COMMIT without an entry whose owner has no record, in a full table. -/
theorem commit_full {r : Bytes} {q : CommitReq} (ordered : OwnersOrdered s)
    (full : s.owners.length = 4096) (takes : Takes s 3 r) (parsed : parseCommit r = some q)
    (valid : invalidOwner q.owner = false) (high : q.m ≤ 16777215) (extent : s.extentCheck q = none)
    (late : q.handle = 0 ∨ s.entryByHandle q.handle = none)
    (tracked : s.classOf q.owner = some cls) (new : s.findOwner q.owner = none) :
    let p := s.reevaluate { newRecord s q.owner cls with used := q.m }
    (∀ v, IsVictim s v → ∃ t, exec .commit s = .next t ∧ Replaced s t v p ∧ t.adm = s.adm ∧
      Raised s t .lateCommit q.owner.toNat ∧
      Answered s t (reply 3 (recordTag r) .late (.commit q.m q.m (s.quotaState p)))) ∧
    ((∀ x ∈ s.owners, ¬Evictable s x) → ∃ t, exec .commit s = .next t ∧ t.owners = s.owners ∧
      t.adm = s.adm ∧ Raised s t .lateCommit q.owner.toNat ∧
      ∃ used quota, Answered s t (reply 3 (recordTag r) .late (.commit 0 used quota))) := by
  intro p
  let raised := s.dropHead.raise .lateCommit q.owner.toNat
  have toRaised : ChangesOnly [.port] s raised := (dropHead_changes s).trans (raise_changes ..)
  have quiet : Quiet s.dropHead raised := raise_quiet ..
  have rose (t : State) (h : SameLate raised t) : Raised s t .lateCommit q.owner.toNat :=
    Eq.trans h (raise_raised (s := s.dropHead) .lateCommit q.owner.toNat)
  have run : exec .commit s = .next (commitRequest (recordTag r) q s.dropHead) :=
    whenReleased_taken takes parsed
  rw [commitRequest_late (s := s.dropHead) valid high extent late, commitLate,
    show s.dropHead.classOf q.owner = some cls from tracked] at run
  dsimp only at run
  refine ⟨fun v victim => ?_, fun fixed => ?_⟩
  · let made := raised.setOwners (inPlaceOf raised v (newRecord s q.owner cls))
    let charge : Owner → Owner := fun o => o.charge q.m s.now
    let touched := made.touchOwner q.owner charge
    let noted := touched.usedChanged q.owner (s.usedOf q.owner)
    have ensured : raised.ensureOwner q.owner cls = some made :=
      (ensureOwner_new (s := raised) new).trans (addOwner_evicts (s := raised)
        (ownersOrdered_congr rfl rfl ordered) full victim)
    have same : SameFigures s made := .trans (.of_changes (by decide) toRaised)
      (.of_changes (by decide) (setOwners_changes ..))
    have charged : charge (newRecord s q.owner cls) =
      { newRecord s q.owner cls with used := q.m } := by
      have : satAdd 0 q.m = q.m := by
        rw [satAdd, Nat.zero_add]
        exact Nat.min_eq_left (le_trans high (by decide))
      simp only [charge, Owner.charge, newRecord, this]
      rfl
    have owners : touched.owners = inPlaceOf s v p := by
      have := touchOwner_inPlaceOf (w := made) (s := s) (v := v) (f := charge) (id := q.owner)
        (u := newRecord s q.owner cls) rfl rfl rfl
      rwa [same.reevaluate, charged] at this
    have key : p.id = q.owner := reevaluate_id ..
    have replaced (t : State) (h : t.owners = touched.owners) : Replaced s t v p :=
      replaced_of_owners ordered victim.1 (key ▸ new) (h.trans owners)
    have noting : ChangesOnly [.link] touched noted := usedChanged_changes ..
    have found : noted.findOwner q.owner = some p :=
      key ▸ (replaced noted (noting.2 .owners (by decide))).2.1
    have used : noted.usedOf q.owner = q.m := by
      rw [State.usedOf, found]
      exact reevaluate_used ..
    have before : ChangesOnly [.owners, .link] raised noted :=
      andThen (by decide) (andThen (by decide) (within (by decide) (setOwners_changes ..))
        (touchOwner_changes ..)) noting
    have quota : noted.quotaOf q.owner = s.quotaState p :=
      (quotaOf_of_found found).trans ((same.trans (.trans (.of_changes (by decide)
        (touchOwner_changes ..)) (usedChanged_sameFigures ..))).quotaState p)
    have finished := finishCommit_changes noted (recordTag r) q .late q.m (noted.usedOf q.owner)
      (noted.quotaOf q.owner)
    rw [ensured] at run
    dsimp only at run
    change exec .commit s = .next (noted.finishCommit (recordTag r) q .late q.m
      (noted.usedOf q.owner) (noted.quotaOf q.owner)) at run
    refine ⟨_, run, ?_, ?_, ?_, ?_⟩
    · exact replaced _ ((finished.2 .owners (by decide)).trans (noting.2 .owners (by decide)))
    · exact (finished.2 .adm (by decide)).trans
        ((before.2 .adm (by decide)).trans (toRaised.2 .adm (by decide)))
    · exact rose _ (SameLate.trans (.of_port (before.2 .port (by decide)))
        (sameLate_finishCommit ..))
    · rw [used, quota]
      exact finishCommit_answered (quiet.trans (.of_changes before (by decide)))
  · have none : raised.ensureOwner q.owner cls = none :=
      (ensureOwner_new (s := raised) new).trans (addOwner_none (s := raised) full fixed)
    rw [none] at run
    have finished := finishCommit_changes raised (recordTag r) q .late 0 0 .normal
    exact ⟨_, run, (finished.2 .owners (by decide)).trans (toRaised.2 .owners (by decide)),
      (finished.2 .adm (by decide)).trans (toRaised.2 .adm (by decide)),
      rose _ (sameLate_finishCommit ..), 0, .normal, finishCommit_answered quiet⟩

/-! ### RESTORE_GO -/

theorem findJob_of_context {job : Nat} (found : s.context c = some x) (name : x.job = job) :
    s.findJob c.val job = some (c, x) := by
  unfold State.findJob
  rw [dif_pos c.isLt, show (⟨c.val, c.isLt⟩ : Fin 4) = c from rfl, found]
  dsimp only
  rw [if_pos name]

theorem goRequest_tracked {q : JobReq} (key : q.context = c.val) (found : s.context c = some x)
    (name : x.job = q.job) (state : x.state = .assembling) (complete : x.k ≤ x.items.length)
    (kept : x.tracked = true) (tracked : s.classOf x.owner = some cls) :
    goRequest tag q s = goTracked tag c x cls s := by
  unfold goRequest
  rw [if_neg (by omega), key, findJob_of_context found name]
  dsimp only
  rw [if_neg (by simp [state]), if_neg (by omega), kept, if_pos rfl, tracked]

/-- COPY notices leave the state and the handle of a job (R114). -/
theorem placeCopies_context (found : s.context c = some x) :
    ∃ y, s.placeCopies.context c = some y ∧ y.state = x.state ∧ y.handle = x.handle := by
  unfold State.placeCopies
  generalize 16 = rounds
  induction rounds generalizing s x with
  | zero => exact ⟨x, found, rfl, rfl⟩
  | succ rounds ih =>
    unfold copyRounds
    split
    · exact ⟨x, found, rfl, rfl⟩
    split
    · rename_i d z next _
      obtain ⟨served, -⟩ := nextCopy_some next
      have placed : ∃ y, (s.placeCopy d z).context c = some y ∧ y.state = x.state ∧
          y.handle = x.handle := by
        unfold State.placeCopy
        dsimp only
        split
        · exact ⟨x, found, rfl, rfl⟩
        · by_cases here : c = d
          · subst here
            obtain rfl : x = z := Option.some.inj (found.symm.trans served)
            exact ⟨_, context_putContext_self .., rfl, rfl⟩
          · exact ⟨x, (context_putContext_other s here _).trans found, rfl, rfl⟩
      obtain ⟨y, stands, state, handle⟩ := placed
      obtain ⟨y', stands', state', handle'⟩ := ih stands
      exact ⟨y', stands', state'.trans state, handle'.trans handle⟩
    · exact ⟨x, found, rfl, rfl⟩

theorem startJob_context (s : State) (c : Fin 4) (x : Context) (handle : Option Nat) :
    (s.startJob c x handle).context c = some (x.start handle) := by
  unfold State.startJob
  rw [context_of_changes (by decide) (restoreStarts_changes _)]
  exact context_putContext_self ..

theorem freeContext_context (s : State) (c : Fin 4) (x : Context) :
    (s.freeContext c x).context c = none := by
  unfold State.freeContext
  rw [context_of_changes (by decide) (giveRef_changes ..)]
  exact context_putContext_self ..

/-- A RESTORE_GO whose owner has no record, in a full table. -/
theorem restoreGo_full {r : Bytes} {q : JobReq} (ordered : OwnersOrdered s)
    (full : s.owners.length = 4096) (takes : Takes s 13 r) (parsed : parseJob r = some q)
    (context : q.context = c.val) (job : s.context c = some x) (name : x.job = q.job)
    (state : x.state = .assembling) (complete : x.k ≤ x.items.length) (kept : x.tracked = true)
    (tracked : s.classOf x.owner = some cls) (new : s.findOwner x.owner = none) :
    let slot := lowestFreeSlot 0 s.adm.entries
    let handle := nextHandle (s.adm.entries.map (·.handle)) 513 s.adm.handleCounter
    let n := (x.items.map (·.length)).sum
    let u := newRecord s x.owner cls
    let limits := s.effectiveLimits u
    let o := s.reevaluate { u with reserved := n }
    n ≤ limits.hard → n ≤ 4294967295 → slot < 512 →
    (∀ v, IsVictim s v → ∃ t y, exec .restoreGo s = .next t ∧ Replaced s t v o ∧
      t.adm = {
        entries := putEntry { slot, handle, owner := x.owner, blocks := n,
                              volume := s.volumeId x.targetSlot, lease := none,
                              origin := .restore c, grantTime := s.time.uptime } s.adm.entries
        handleCounter := handle } ∧
      t.context c = some y ∧ y.state = .running ∧ y.handle = some handle ∧
      Answered s t (reply 13 (recordTag r) (if limits.soft < n then .soft else .ok)
        (.restoreGo (n := n) (view := 0) (soft := limits.soft) (hard := limits.hard)
          (quota := s.quotaState o)))) ∧
    ((∀ x ∈ s.owners, ¬Evictable s x) → ∃ t, exec .restoreGo s = .next t ∧
      t.context c = none ∧ t.owners = s.owners ∧ t.adm = s.adm ∧ t.dup = s.dup ∧
      Answered s t (reply 13 (recordTag r) .full
        (.restoreGo (n := n) (view := 0) (soft := limits.soft) (hard := limits.hard)
          (quota := s.quotaState u)))) := by
  intro slot handle n u limits o hard small room
  have run : exec .restoreGo s = .next (goRequest (recordTag r) q s.dropHead) :=
    whenReleased_taken takes parsed
  rw [goRequest_tracked (s := s.dropHead) context job name state complete kept tracked,
    goTracked] at run
  refine ⟨fun v victim => ?_, fun fixed => ?_⟩
  · obtain ⟨w, decided, adm, owners, only⟩ := admitBlocks_evicts (s := s.dropHead)
      (vol := s.volumeId x.targetSlot) (origin := .restore c) (ownersOrdered_congr rfl rfl ordered)
      full new hard small room victim
    have admitted : (if limits.soft < n then Status.soft else .ok) = .ok ∨
        (if limits.soft < n then Status.soft else .ok) = .soft := by
      split
      · exact .inr rfl
      · exact .inl rfl
    let started := w.startJob c x (some handle)
    let body : Body := .restoreGo (n := n) (view := 0) (soft := limits.soft) (hard := limits.hard)
      (quota := started.quotaFor x.owner cls)
    let told := started.answer 13 (recordTag r) (if limits.soft < n then .soft else .ok) body
    have starting : ChangesOnly [.rsc, .dup] w started := startJob_changes ..
    have telling : ChangesOnly [.port] started told := answer_changes ..
    have placing : ChangesOnly [.rsc, .port] told told.placeCopies := placeCopies_changes told
    have key : o.id = x.owner := reevaluate_id ..
    have replaced (t : State) (h : t.owners = w.owners) : Replaced s t v o :=
      replaced_of_owners ordered victim.1 (key ▸ new) (h.trans owners)
    have before : ChangesOnly [.owners, .adm, .rsc, .dup] s.dropHead started :=
      (within (by decide) only).trans (within (by decide) starting)
    have same : SameFigures s started := .trans (.of_changes (by decide) (dropHead_changes s))
      (.of_changes (by decide) before)
    have quota : started.quotaFor x.owner cls = s.quotaState o :=
      (quotaFor_found (key ▸ (replaced started (starting.2 .owners (by decide))).2.1)).trans
        (same.quotaState o)
    have running : told.context c = some (x.start (some handle)) := by
      rw [context_of_changes (by decide) telling]
      exact startJob_context ..
    obtain ⟨y, stands, ran, held⟩ := placeCopies_context running
    have whole : exec .restoreGo s = .next told.placeCopies := by
      rw [run, show s.dropHead.volumeId x.targetSlot = s.volumeId x.targetSlot from rfl, decided]
      dsimp only
      exact congrArg Host.Outcome.next (if_pos admitted)
    refine ⟨_, y, whole, replaced _ ?_, ?_, stands, ran, held, ?_⟩
    · exact (placing.2 .owners (by decide)).trans ((telling.2 .owners (by decide)).trans
        (starting.2 .owners (by decide)))
    · exact (placing.2 .adm (by decide)).trans ((telling.2 .adm (by decide)).trans
        ((starting.2 .adm (by decide)).trans adm))
    · rw [← quota]
      exact answered_of_quiet (.of_changes before (by decide)) (placeCopies_grows told)
  · have decided := admitBlocks_full (s := s.dropHead) (vol := s.volumeId x.targetSlot)
      (origin := .restore c) full new hard small fixed
    let freed := s.dropHead.freeContext c x
    let body : Body := .restoreGo (n := n) (view := 0) (soft := limits.soft) (hard := limits.hard)
      (quota := freed.quotaFor x.owner cls)
    let told := freed.answer 13 (recordTag r) .full body
    let t := told.evaluateIfOver x.sourceSlot
    have freeing : ChangesOnly [.rsc, .cat] s.dropHead freed := freeContext_changes ..
    have behind : ChangesOnly [.cat, .port] freed t :=
      (within (by decide) (answer_changes ..)).trans (evaluateIfOver_changes ..)
    have only : ChangesOnly [.rsc, .cat, .port] s t :=
      ((within (by decide) (dropHead_changes s)).trans (within (by decide) freeing)).trans
        (within (by decide) behind)
    have same : SameFigures s freed := .trans (.of_changes (by decide) (dropHead_changes s))
      (.of_changes (by decide) freeing)
    have absent : freed.findOwner x.owner = none :=
      (findOwner_of_changes (by decide) freeing _).trans new
    have quota : freed.quotaFor x.owner cls = s.quotaState u := by
      have record : newRecord freed x.owner cls = u := by
        simp only [u, newRecord, State.cfg, same.1, same.2.1]
      rw [quotaFor_new absent, record, same.quotaState]
    have whole : exec .restoreGo s = .next t := by
      rw [run, show s.dropHead.volumeId x.targetSlot = s.volumeId x.targetSlot from rfl, decided]
      rfl
    refine ⟨t, whole, ?_, only.2 .owners (by decide), only.2 .adm (by decide),
      only.2 .dup (by decide), ?_⟩
    · rw [context_of_changes (by decide) behind]
      exact freeContext_context ..
    · rw [← quota]
      exact answered_of_quiet (.of_changes freeing (by decide)) (evaluateIfOver_grows ..)

/-- Settles O16: the timers record by record, and for each of the four requests the victim's place
or the refusal. -/
theorem ownerTimersAndTheFullTable : Obligations.OwnerTimersAndTheFullTable := by
  unfold Obligations.OwnerTimersAndTheFullTable
  refine ⟨fun s released => ⟨fun slot => leaseExpiry_absent released, fun slot e found =>
    ⟨leaseExpiry_early released found, fun o => leaseExpiry_leaves released found⟩,
    fun id => ownerTimers_absent released, fun id o => ownerTimers_found released⟩, ?_⟩
  intro s r ordered full slot handle
  refine ⟨?_, ?_, ?_, ?_⟩
  · intro q cls takes parsed valid volume low high found tracked new
    exact reserve_full ordered full takes parsed valid volume low high found tracked new
  · intro q cls takes parsed valid high extent late tracked new
    exact commit_full ordered full takes parsed valid high extent late tracked new
  · intro q c x cls takes parsed context job name state complete kept tracked new
    exact restoreGo_full ordered full takes parsed context job name state complete kept tracked new
  · intro q cls takes parsed valid present tracked new
    exact loadOwner_full ordered full takes parsed valid present tracked new

end Sys2Proof.Proofs

/-! PROOFS. INSPECT (R170): the part that it returns, and what it leaves. -/

namespace Sys2Proof.Proofs

open Sys2Proof.Machine Sys2Proof.Safety

variable {s t u : State} {q : InspectReq} {tag : Nat} {fields : Fields}

/-! ### The state an INSPECT reads -/

theorem inspected_eq (s : State) (q : InspectReq) : s.inspected q =
    if q.table = 1 ∧ q.key ≤ 4294967295 then
      s.touchOwner (BitVec.ofNat 32 q.key) fun o => o else s := rfl

theorem inspected_dropHead (s : State) (q : InspectReq) :
    s.dropHead.inspected q = (s.inspected q).setPort s.dropHead.port := by
  unfold State.inspected
  split
  · unfold State.touchOwner
    rw [show s.dropHead.findOwner (BitVec.ofNat 32 q.key) =
      s.findOwner (BitVec.ofNat 32 q.key) from rfl]
    cases s.findOwner (BitVec.ofNat 32 q.key) <;> rfl
  · rfl

/-- No table holds anything of the port. -/
theorem find_setPort (s : State) (p : Port) (table key : Nat) :
    (s.setPort p).find table key = s.find table key := rfl

theorem find_inspected (s : State) (q : InspectReq) :
    (s.dropHead.inspected q).find q.table q.key = (s.inspected q).find q.table q.key := by
  rw [inspected_dropHead, find_setPort]

theorem inspected_changes (s : State) (q : InspectReq) :
    ChangesOnly [.owners] s (s.inspected q) := by
  unfold State.inspected
  exact .ite (fun _ => touchOwner_changes ..) fun _ => .refl _ _

/-! ### The request -/

theorem inspectRequest_range (h : q.table < 1 ∨ 9 < q.table ∨ 7 < q.part) :
    inspectRequest tag q s = s.answer 20 tag .badField (.inspect) := by
  unfold inspectRequest
  rw [if_pos h]

theorem inspectRequest_badKey (h : (s.inspected q).find q.table q.key = .badKey) :
    inspectRequest tag q s = s.answer 20 tag .badField (.inspect) := by
  unfold inspectRequest
  split
  · rfl
  · dsimp only
    rw [h]

theorem inspectRequest_missing (low : 1 ≤ q.table) (high : q.table ≤ 9) (part : q.part ≤ 7)
    (h : (s.inspected q).find q.table q.key = .missing fields) :
    inspectRequest tag q s = s.answer 20 tag .noSuch (.inspect (fieldBytes fields)) := by
  unfold inspectRequest
  rw [if_neg (by omega)]
  dsimp only
  rw [h]

theorem inspectRequest_contents (low : 1 ≤ q.table) (high : q.table ≤ 9) (part : q.part ≤ 7)
    (h : (s.inspected q).find q.table q.key = .contents fields) :
    inspectRequest tag q s =
      if partCount (fieldBytes fields) ≤ q.part then s.answer 20 tag .badField (.inspect)
      else (s.inspected q).answerPart 20 tag q.part (partCount (fieldBytes fields)) .ok
        (.inspect (partOf (fieldBytes fields) q.part)) := by
  unfold inspectRequest
  rw [if_neg (by omega)]
  dsimp only
  rw [h]

theorem answeredPart_of_quiet {kind tag part parts : Nat} {st : Status} {b : Body}
    (quiet : Quiet s.dropHead u) : Answered s (u.answerPart kind tag part parts st b)
      { reply kind tag st b with part := part, parts := parts } := by
  obtain ⟨requests, completions⟩ := quiet
  obtain ⟨grown, -, -, more, placed, notices⟩ := answerPart_grows u kind tag part parts st b
  refine ⟨grown.trans requests, more, placed.trans ?_, notices⟩
  change (u.port.completions ++ [_]) ++ more = _
  rw [completions, List.append_assoc]
  rfl

/-- INSPECT answers a range error, a summary or one part. -/
theorem inspect_answers {r : Bytes} (takes : Takes s 20 r) (parsed : parseInspect r = some q) :
    let u := if q.table = 1 ∧ q.key ≤ 4294967295 then
        s.touchOwner (BitVec.ofNat 32 q.key) fun o => o
      else s
    (q.table < 1 ∨ 9 < q.table ∨ 7 < q.part ∨ u.find q.table q.key = .badKey →
      ∃ t, exec .inspect s = .next t ∧ ChangesOnly [.port] s t ∧
        Answered s t (reply 20 (recordTag r) .badField (.inspect))) ∧
    (1 ≤ q.table → q.table ≤ 9 → q.part ≤ 7 →
      (∀ summary, u.find q.table q.key = .missing summary →
        ∃ t, exec .inspect s = .next t ∧ ChangesOnly [.port] s t ∧
          Answered s t (reply 20 (recordTag r) .noSuch (.inspect (fieldBytes summary)))) ∧
      ∀ fields, u.find q.table q.key = .contents fields →
        let bytes := fieldBytes fields
        let parts := max 1 ((bytes.length + 119) / 120)
        (parts ≤ q.part → ∃ t, exec .inspect s = .next t ∧ ChangesOnly [.port] s t ∧
          Answered s t (reply 20 (recordTag r) .badField (.inspect))) ∧
        (q.part < parts → ∃ t, exec .inspect s = .next t ∧ t.owners = u.owners ∧
          ChangesOnly [.owners, .port] s t ∧
          Answered s t { reply 20 (recordTag r) .ok
              (.inspect ((bytes.drop (q.part * 120)).take 120)) with
            part := q.part, parts := parts })) := by
  intro u
  have read : (s.dropHead.inspected q).find q.table q.key = u.find q.table q.key :=
    find_inspected s q
  have run : exec .inspect s = .next (inspectRequest (recordTag r) q s.dropHead) :=
    whenReleased_taken takes parsed
  have refused {st : Status} {b : Body}
      (h : inspectRequest (recordTag r) q s.dropHead = s.dropHead.answer 20 (recordTag r) st b) :
      ∃ t, exec .inspect s = .next t ∧ ChangesOnly [.port] s t ∧
        Answered s t (reply 20 (recordTag r) st b) :=
    ⟨_, run.trans (congrArg _ h), refused_changes, answered_alone (.refl _)⟩
  refine ⟨fun bad => ?_, fun low high part => ⟨fun summary missing => ?_,
    fun fields contents => ?_⟩⟩
  · by_cases range : q.table < 1 ∨ 9 < q.table ∨ 7 < q.part
    · exact refused (inspectRequest_range range)
    · exact refused (inspectRequest_badKey (read.trans (by tauto)))
  · exact refused (inspectRequest_missing low high part (read.trans missing))
  · have answer := inspectRequest_contents (tag := recordTag r) low high part (read.trans contents)
    refine ⟨fun past => refused (answer.trans (if_pos past)), fun within => ?_⟩
    have before := inspected_changes s.dropHead q
    have behind := answerPart_changes (s.dropHead.inspected q) 20 (recordTag r) q.part
      (partCount (fieldBytes fields)) .ok (.inspect (partOf (fieldBytes fields) q.part))
    refine ⟨_, run.trans (congrArg _ (answer.trans (if_neg (Nat.not_le.mpr within)))), ?_, ?_, ?_⟩
    · rw [show State.owners _ = _ from behind.2 .owners (by decide), inspected_dropHead]
      rfl
    · exact andThen (by decide) (andThen (by decide) (Proofs.within (by decide)
        (dropHead_changes s))
        before) behind
    · exact answeredPart_of_quiet (.of_changes before (by decide))

end Sys2Proof.Proofs

/-! PROOFS. What the tables of INSPECT hold beside the owner records (R46, R67, R69, R71, R90, R103,
R104, R122, R139, R144, R161, R171, R182). -/

namespace Sys2Proof.Proofs

open Sys2Proof.Machine Sys2Proof.Safety

variable {s : State} {i : Fin 8} {v : Volume} {key : Nat}

/-! ### Keys out of range -/

theorem foundAt_val {n : Nat} (i : Fin n) (f : Fin n → Found) : foundAt n i.val f = f i := by
  unfold foundAt
  rw [dif_pos i.isLt]

theorem foundAt_high {n : Nat} (f : Fin n → Found) (high : n ≤ key) :
    foundAt n key f = .badKey := by
  unfold foundAt
  rw [dif_neg (Nat.not_lt.mpr high)]

theorem find_badKey (s : State) (key : Nat) :
    (4294967295 < key ∨ invalidOwner (BitVec.ofNat 32 key) = true → s.find 1 key = .badKey) ∧
    (512 ≤ key → s.find 2 key = .badKey) ∧ (16 ≤ key → s.find 3 key = .badKey) ∧
    (8 ≤ key → s.find 4 key = .badKey) ∧ (key / 4294967296 = 0 → s.find 5 key = .badKey) ∧
    (4 ≤ key → s.find 6 key = .badKey) ∧ (8 ≤ key → s.find 7 key = .badKey) ∧
    (8 ≤ key → s.find 8 key = .badKey) ∧ (4 ≤ key → s.find 9 key = .badKey) := by
  rw [State.find, State.find, State.find, State.find, State.find, State.find, State.find,
    State.find, State.find]
  exact ⟨fun h => if_pos h.symm, fun h => if_neg (Nat.not_lt.mpr h), foundAt_high _,
    foundAt_high _, fun h => if_pos h, foundAt_high _, foundAt_high _, foundAt_high _,
    foundAt_high _⟩

/-! ### RESERVATION and PEER -/

theorem find_reservation (range : key < 512) :
    (s.entryInSlot key = none → s.find 2 key = .missing [(2, s.adm.handleCounter)]) ∧
    ∀ e, s.entryInSlot key = some e → s.find 2 key = .contents
      [(2, e.handle), (4, e.owner.toNat), (4, e.blocks), (2, e.volume), (6, e.lease.getD 0),
        (1, match e.origin with | .write => 0 | .restore _ => 1),
        (1, match e.origin with | .write => 0 | .restore c => c.val), (6, e.grantTime),
        (2, s.adm.handleCounter)] := by
  refine ⟨fun free => ?_, fun e taken => ?_⟩
  · rw [State.find, if_pos range, free]
  · rw [State.find, if_pos range, taken]
    dsimp only
    unfold Reservation.fields
    cases e.origin <;> rfl

theorem find_peer (i : Fin 16) :
    let p := s.peer i
    s.find 3 i.val = .contents
      [(1, p.state.code), (2, p.generation), (1, p.part.code), (1, p.window.toNat),
        (4, p.backlog), (4, p.share), (2, p.ownerCount), (6, p.heard.getD 0),
        (1, p.announced.toNat),
        (6, if p.state = .live then ((p.heard.map fun h =>
          h + s.cfg.staleMultiple * (s.cfg.announceInterval * 1000)).getD 0) else 0),
        (1, s.station.val), (2, s.link.generation), (1, s.link.state.code), (1, s.link.expiries),
        (1, s.link.announceSlot.code), (1, s.link.usageSlot.code), (1, s.link.attempts),
        (1, s.link.sweep.isSome.toNat), (1, (s.link.sweep.map (·.station.val)).getD 0),
        (4, ((s.link.sweep.bind (·.cursor)).map (·.toNat)).getD 0)] := by
  intro p
  have deadline : timeOrZero (s.staleDeadline p) = if p.state = .live then ((p.heard.map fun h =>
      h + s.cfg.staleMultiple * (s.cfg.announceInterval * 1000)).getD 0) else 0 := by
    unfold State.staleDeadline
    split <;> rfl
  rw [← deadline]
  rw [State.find, foundAt_val]
  rfl

/-! ### VOLUME -/

theorem findIdx?_first {β : Type} (l : List (Fin 8 × β)) (i : Fin 8) :
    l.findIdx? (·.1 == i) =
      if i ∈ l.map (·.1) then some ((l.map (·.1)).idxOf i) else none := by
  induction l with
  | nil => rfl
  | cons x xs ih =>
    rw [List.findIdx?_cons, ih, List.map_cons, List.idxOf_cons]
    by_cases here : x.1 = i
    · simp [here]
    · have other : (x.1 == i) = false := beq_false_of_ne here
      by_cases later : i ∈ xs.map (·.1)
      · simp [other, later]
      · simp [other, later, Ne.symm here]

/-- The place of a volume in the serving order, from 1 (R161). -/
theorem position_eq {β : Type} (l : List (Fin 8 × β)) (i : Fin 8) :
    ((l.findIdx? (·.1 == i)).map (· + 1)).getD 0 =
      if i ∈ l.map (·.1) then (l.map (·.1)).idxOf i + 1 else 0 := by
  rw [findIdx?_first]
  split <;> rfl

/-- The regions of a volume (R139). -/
theorem regions_eq (size : Nat) : ceilDiv size Config.regionBlocks = (size + 262143) / 262144 := by
  have regions : Config.regionBlocks = 262144 := rfl
  have round : size + 262144 - 1 = size + 262143 := Nat.add_sub_assoc (by decide) size
  unfold ceilDiv
  rw [regions, if_neg (by decide), round]

theorem find_volume (i : Fin 8) :
    let d := s.dup
    let scheduler := [(1, d.window.code), (2, s.cfg.windowStart), (2, s.cfg.windowEnd),
      (1, s.time.minute.isSome.toNat), (2, s.time.minute.getD 0),
      (6, s.time.nextAdvance.getD 0), (4, s.ownBacklog), (4, min s.peerBacklog 4294967295),
      (4, d.share), (4, d.tokens), (1, d.suspension.code), (6, d.lastResume.getD 0),
      (6, d.deferral.getD 0), (1, d.running), (2, d.ticketCounter), (1, s.ticketsOut.length)]
    (s.vol i = none → s.find 4 i.val = .missing scheduler) ∧
    ∀ v, s.vol i = some v →
      let own := s.ticketsOut.filter (·.slot == i)
      let pieces := own.flatMap fun x => match x.work with
        | .extents l => l
        | .scan _ _ => []
      let estimate := if v.dup = .sending then s.estimate i v else none
      let order := s.servingOrder.map (·.1)
      s.find 4 i.val = .contents (
        [(2, v.id), (4, v.size), (4, v.openEpoch), (4, v.limit), (1, v.autoExpire.toNat),
          (1, v.dupEnable.toNat), (1, v.profile.val), (4, v.retained), (4, v.base.getD 0),
          (1, v.overReported.toNat), (1, v.expiryWaiting.toNat), (1, v.overLimit.toNat),
          (2, (s.snapsOf i).length), (4, (s.oldest i).getD 0), (4, (s.newest i).getD 0),
          (4, (s.candidate i).getD 0), (2, s.cat.snaps.length), (1, s.cat.lock.code),
          (1, s.cat.lockCause.code), (1, s.cat.lockClosedSince.toNat), (1, v.fullScan.toNat),
          (2, v.current.length), (4, (v.current.map (·.length)).sum)] ++
        (match v.send with
          | .extents l => [(1, 0), (2, l.length), (4, (l.map (·.length)).sum), (4, 0), (2, 0),
              (1, 0)]
          | .scan cursor => [(1, 1), (2, 0), (4, 0), (4, cursor), (2, (v.size + 262143) / 262144),
              (1, (s.scanComplete i v).toNat)]) ++
        [(1, pieces.length), (4, (pieces.map (·.length)).sum), (2, s.poolFree), (1, v.dup.code),
          (4, v.sendEpoch.getD 0), (1, v.failures), (6, v.cutDeadline.getD 0),
          (1, v.cutDue.toNat), (1, v.endDue.toNat), (1, v.atRisk.toNat), (1, v.outstanding),
          (4, s.backlogOf i v), (1, estimate.isSome.toNat), (6, estimate.getD 0),
          (1, if i ∈ order then order.idxOf i + 1 else 0), (1, own.length)] ++
        own.map (fun x => (2, x.number)) ++ scheduler) := by
  intro d scheduler
  refine ⟨fun free => ?_, fun v found => ?_⟩
  · rw [State.find, foundAt_val, free]
    rfl
  · intro own pieces estimate order
    have position := position_eq s.servingOrder i
    rw [show s.find 4 i.val = .contents (s.volumeFields i v ++ s.schedulerSummary) by
      rw [State.find, foundAt_val, found]]
    refine congrArg Found.contents ?_
    unfold State.volumeFields State.duplicationFields State.listFields
    dsimp only
    rw [position]
    cases v.send with
    | extents l =>
      simp only [List.append_assoc]
      rfl
    | scan cursor =>
      dsimp only
      rw [regions_eq]
      simp only [List.append_assoc]
      rfl

/-! ### SNAPSHOT -/

theorem find_snapshot {id epoch : Nat} (one : 1 ≤ id) (range : epoch < 4294967296) :
    (s.findVol id = none → s.find 5 (id * 4294967296 + epoch) = .missing []) ∧
    ∀ i v, s.findVol id = some (i, v) →
      (s.findSnap i epoch = none → s.find 5 (id * 4294967296 + epoch) = .missing []) ∧
      ∀ x, s.findSnap i epoch = some x → s.find 5 (id * 4294967296 + epoch) = .contents (
        [(1, i.val), (4, epoch), (1, x.kind.code), (4, x.tag), (6, x.created),
          (1, x.hold.toNat), (1, x.pin.toNat), (1, x.refs), (1, x.buckets.length)] ++
        x.buckets.flatMap (fun b => [(4, b.birth), (4, b.blocks)]) ++
        [(4, (x.buckets.map (·.blocks)).sum), (1, x.deletable.toNat), (1, x.eligible.toNat),
          (4, (s.nextOlder i epoch).getD 0), (1, (s.restoresOf i epoch).length)] ++
        (s.restoresOf i epoch).map (fun c => (1, c.val)) ++
        [(1, (decide (v.sendEpoch = some epoch)).toNat),
          (1, (decide (v.base = some epoch)).toNat)]) := by
  have high : (id * 4294967296 + epoch) / 2 ^ 32 = id := by omega
  have low : (id * 4294967296 + epoch) % 2 ^ 32 = epoch := by omega
  refine ⟨fun free => ?_, fun i v found => ⟨fun free => ?_, fun x stands => ?_⟩⟩
  · rw [State.find, high, if_neg (by omega), free]
  · rw [State.find, high, low, if_neg (by omega), found]
    dsimp only
    rw [free]
  · have holds : s.vol i = some v := findVol_some found
    obtain ⟨-, slot, name⟩ := findSnap_some stands
    rw [State.find, high, low, if_neg (by omega), found]
    dsimp only
    rw [stands]
    dsimp only
    unfold State.snapshotFields State.holdsSend State.holdsBase
    have role (r : Option Nat) : (r == some epoch) = decide (r = some epoch) := by
      rw [Bool.eq_iff_iff, beq_iff_eq, decide_eq_true_eq]
    rw [slot, name, holds]
    dsimp only
    rw [role, role]
    rfl

/-! ### RESTORE -/

theorem find_restore (c : Fin 4) :
    let controller := [(2, s.rsc.jobCounter), (1, s.rsc.lastServed.val), (1, s.cfg.copyDepth),
      (1, ((List.finRange 4).filter fun d => isRunning (s.context d)).length)]
    (s.context c = none → s.find 6 c.val = .missing controller) ∧
    ∀ x, s.context c = some x → s.find 6 c.val = .contents (
      [(1, match x.state with | .assembling => 1 | .running => 2 | .draining => 3), (2, x.job),
        (4, x.owner.toNat), (1, x.tracked.toNat), (2, s.volumeId x.sourceSlot),
        (4, x.sourceEpoch), (2, s.volumeId x.targetSlot), (1, x.k), (1, x.items.length)] ++
      x.items.flatMap (fun m => [(4, m.source), (2, m.length), (4, m.birth), (4, m.target),
        (1, m.state.code)]) ++
      [(6, x.deadline.getD 0), (2, x.handle.getD 0), (1, x.outstanding),
        (1, x.failureSeen.toNat), (1, x.endDue.toNat), (1, x.timeoutDue.toNat), (4, x.charged),
        (4, ((x.handle.bind s.entryByHandle).map (·.blocks)).getD 0)] ++ controller) := by
  intro controller
  have summary : s.restoreSummary = controller := rfl
  refine ⟨fun free => ?_, fun x taken => ?_⟩
  · rw [State.find, foundAt_val, free]
    rfl
  · rw [State.find, foundAt_val, taken]
    dsimp only
    rw [summary]
    unfold State.contextFields
    cases x.state <;> rfl

/-! ### CLASS, WINDOW and PROFILE -/

theorem find_image (s : State) :
    let g := s.cfg
    let startUp := [(1, s.part.code),
      (1, match s.checkFailure with | some (.range _) => 1 | _ => 0),
      (1, match s.checkFailure with | some (.range n) => n | _ => 0),
      (1, s.station.val), (1, s.maint.toNat)]
    (s.image = none → ∀ key, (key < 8 → s.find 7 key = .missing startUp) ∧
      (key < 8 → s.find 8 key = .missing startUp) ∧
      (key < 4 → s.find 9 key = .missing startUp)) ∧
    (s.image.isSome = true →
      (∀ i : Fin 8, s.find 7 i.val = .contents
        [(4, g.classes[i].soft), (4, g.classes[i].hard), (2, g.classes[i].grace),
          (4, g.classes[i].margin), (4, g.classes[i].threshold), (2, g.classes[i].lease),
          (2, (s.owners.filter (·.cls == i)).length), (4, g.uplink), (2, g.minShare),
          (4, g.stationCap), (1, g.announceInterval), (1, g.staleMultiple), (2, g.sweepPeriod),
          (1, g.assemblyTimeout), (2, g.cutTimeout), (1, g.copyDepth), (2, g.minProgress),
          (2, g.windowStart), (2, g.windowEnd), (2, g.scanRatio), (1, g.lockAtStart.code),
          (1, s.station.val), (1, s.maint.toNat)]) ∧
      (∀ i : Fin 8, s.find 8 i.val = .contents [(4, g.windows[i].base.toNat),
        (4, g.windows[i].mask.toNat), (1, g.windows[i].cls.val),
        (1, g.windows[i].enable.toNat)]) ∧
      ∀ i : Fin 4, s.find 9 i.val = .contents [(2, g.profiles[i].maxBlocks),
        (1, g.profiles[i].depth), (2, g.profiles[i].overhead), (1, g.profiles[i].retryLimit)]) := by
  intro g startUp
  have summary : s.startSummary = startUp := by
    unfold State.startSummary
    cases h : s.checkFailure with
    | none => simp [startUp, h]
    | some f => cases f <;> simp [startUp, h]
  refine ⟨fun none key => ?_, fun present => ?_⟩
  · have missing {n : Nat} (f : Fin n → Fields) (range : key < n) :
        foundAt n key (fun i => s.imageTable (f i)) = .missing startUp := by
      rw [foundAt_val ⟨key, range⟩, State.imageTable, none, ← summary]
      rfl
    rw [State.find, State.find, State.find]
    exact ⟨missing _, missing _, missing _⟩
  · have held {n : Nat} (f : Fin n → Fields) (i : Fin n) :
        foundAt n i.val (fun i => s.imageTable (f i)) = .contents (f i) := by
      rw [foundAt_val, State.imageTable, if_pos present]
    refine ⟨fun i => ?_, fun i => ?_, fun i => ?_⟩
    · rw [State.find]
      exact held _ i
    · rw [State.find]
      exact held (fun i => (s.cfg.windows[i]).fields) i
    · rw [State.find]
      exact held (fun i => (s.cfg.profiles[i]).fields) i

end Sys2Proof.Proofs

/-! PROOFS. The OWNER table of INSPECT by the layout of R179; settles O45. -/

namespace Sys2Proof.Proofs

open Sys2Proof.Machine Sys2Proof.Safety

variable {s : State} {o : Owner} {n m : Nat} {tail : Bytes} {pre : Fields}

/-! ### Flags -/

theorem flagByte_map {α : Type} (f : α → Bool) (l : List α) : flagByte (l.map f) =
    ((List.range l.length).map fun n => ((l[n]?).any f).toNat * 2 ^ n).sum := by
  induction l with
  | nil => rfl
  | cons x xs ih =>
    have later : ((List.range xs.length).map fun n => (((x :: xs)[n + 1]?).any f).toNat *
        2 ^ (n + 1)).sum = 2 * flagByte (xs.map f) := by
      rw [ih, ← List.sum_map_mul_left]
      refine congrArg List.sum (List.map_congr_left fun n _ => ?_)
      rw [List.getElem?_cons_succ, pow_succ]
      ring
    have first : flagByte ((x :: xs).map f) = (f x).toNat + 2 * flagByte (xs.map f) := rfl
    rw [first, ← later, List.length_cons, List.range_succ_eq_map, List.map_cons, List.map_map,
      List.sum_cons]
    exact congrArg₂ (· + ·) (by simp) rfl

/-! ### Rows of a layout -/

/-- Rows of offset, width and value that follow one another from an offset on. -/
def Laid : Nat → List (Nat × Nat × Nat) → Prop
  | _, [] => True
  | n, row :: rows => row.1 = n ∧ Laid (n + row.2.1) rows

theorem laid_read {rows : List (Nat × Nat × Nat)} (laid : Laid (widthOf pre + n) rows) :
    ∀ row ∈ rows, fieldAt (fieldBytes (pre ++ rows.map (·.2)) ++ tail) (row.1 - n) row.2.1 =
      row.2.2 % 256 ^ row.2.1 := by
  induction rows generalizing pre with
  | nil => simp
  | cons row rows ih =>
    obtain ⟨first, rest⟩ := laid
    refine List.forall_mem_cons.mpr ⟨fieldAt_fields ?_, ?_⟩
    · rw [first, Nat.add_sub_cancel]
    · have step : widthOf (pre ++ [row.2]) + n = widthOf pre + n + row.2.1 := by
        rw [widthOf_append]
        exact Nat.add_right_comm ..
      have read := ih (pre := pre ++ [row.2]) (step ▸ rest)
      rwa [← List.append_cons] at read

/-! ### The owner record -/

/-- The fields of an owner record in front of its contributions, by their offsets (R179). -/
def ownerRows (s : State) (o : Owner) : List (Nat × Nat × Nat) :=
  [(8, 1, 1), (9, 1, o.cls.val), (10, 1, (s.quotaState o).code),
    (11, 1, o.overflow.toNat + o.override.isSome.toNat * 2 + o.grace.isSome.toNat * 4 +
      o.warmUp.isSome.toNat * 8 + o.reportTime.isSome.toNat * 16 +
      (isReportDue s o).toNat * 32 + (isOverdue s o).toNat * 64),
    (12, 1, (s.incomplete o).toNat + (s.warming o).toNat * 2 + o.overflow.toNat * 4 +
      (o.contributions.any s.stale).toNat * 8),
    (13, 1, o.contributions.length),
    (14, 1, ((List.range o.contributions.length).map fun n =>
      ((o.contributions[n]?).any s.stale).toNat * 2 ^ n).sum),
    (15, 1, 0), (16, 4, o.id.toNat), (20, 4, o.used), (24, 4, o.reserved),
    (28, 4, o.view), (32, 4, (s.baseLimits o).soft), (36, 4, (s.baseLimits o).hard),
    (40, 4, (s.effectiveLimits o).soft), (44, 4, (s.effectiveLimits o).hard),
    (48, 6, o.grace.getD 0), (54, 6, o.warmUp.getD 0), (60, 6, o.reportTime.getD 0),
    (66, 6, o.lastCharge), (72, 4, o.lastReported)]

theorem ownerRows_laid (s : State) (o : Owner) : Laid 8 (ownerRows s o) :=
  ⟨rfl, rfl, rfl, rfl, rfl, rfl, rfl, rfl, rfl, rfl, rfl, rfl, rfl, rfl, rfl, rfl, rfl, rfl, rfl,
    rfl, rfl, trivial⟩

theorem widthOf_ownerRows (s : State) (o : Owner) : widthOf ((ownerRows s o).map (·.2)) = 68 := by
  simp [widthOf, ownerRows]

theorem ownerFields_eq (s : State) (o : Owner) : s.ownerFields o =
    (ownerRows s o).map (·.2) ++ (o.contributions.flatMap Contribution.fields ++
      List.replicate (6 - o.contributions.length) (7, 0)) := by
  have flags (a b c d e f g : Bool) : flagByte [a, b, c, d, e, f, g] = a.toNat + b.toNat * 2 +
      c.toNat * 4 + d.toNat * 8 + e.toNat * 16 + f.toNat * 32 + g.toNat * 64 := by
    simp only [flagByte, List.foldr_cons, List.foldr_nil]
    ring
  have marks (a b c d : Bool) : flagByte [a, b, c, d] = a.toNat + b.toNat * 2 + c.toNat * 4 +
      d.toNat * 8 := by
    simp only [flagByte, List.foldr_cons, List.foldr_nil]
    ring
  have stale : (o.contributions.map s.stale).any id = o.contributions.any s.stale := List.any_map
  unfold State.ownerFields
  dsimp only
  rw [flags, marks, stale, flagByte_map, reportDue_eq, overdue_eq, List.append_assoc]
  rfl

theorem widthOf_replicate (k w : Nat) : widthOf (List.replicate k (w, 0)) = w * k := by
  unfold widthOf
  rw [List.map_replicate, List.sum_replicate, smul_eq_mul, Nat.mul_comm]

/-- Six places of 7 bytes behind the fields of a record: its contributions, and blanks. -/
theorem places_read {l : List Contribution} (width : widthOf pre = 68) (few : l.length ≤ 6)
    (range : n < 6) :
    let bytes := fieldBytes (pre ++ (l.flatMap Contribution.fields ++
      List.replicate (6 - l.length) (7, 0)))
    let at' := fun offset width => fieldAt bytes (offset - 8) width
    match l[n]? with
    | some c => at' (76 + 7 * n) 1 = c.station.val ∧
        at' (77 + 7 * n) 4 = c.blocks % 4294967296 ∧
        at' (81 + 7 * n) 2 = c.generation % 65536
    | none => at' (76 + 7 * n) 7 = 0 := by
  intro bytes at'
  cases here : l[n]? with
  | some c =>
    have part (j w x offset : Nat) (get : c.fields[j]? = some (w, x))
        (place : 68 + 7 * n + widthOf (c.fields.take j) = offset - 8) :
        at' offset w = x % 256 ^ w := by
      rw [← width] at place
      have read := fieldAt_block (f := Contribution.fields) (tail := [])
        (post := List.replicate (6 - l.length) (7, 0)) (fun _ => rfl) here get place
      rwa [List.append_nil] at read
    refine ⟨(part 0 1 c.station.val _ rfl ?_).trans (Nat.mod_eq_of_lt (by omega)),
      part 1 4 c.blocks _ rfl ?_, part 2 2 c.generation _ rfl ?_⟩
    · change 68 + 7 * n + 0 = _
      omega
    · change 68 + 7 * n + 1 = _
      omega
    · change 68 + 7 * n + 5 = _
      omega
  | none =>
    have past : l.length ≤ n := List.getElem?_eq_none_iff.mp here
    have cut : List.replicate (6 - l.length) ((7, 0) : Nat × Nat) =
        List.replicate (n - l.length) (7, 0) ++ (7, 0) :: List.replicate (5 - n) (7, 0) := by
      rw [← List.replicate_succ, List.replicate_append_replicate]
      exact congrArg (List.replicate · (7, 0)) (by omega)
    have split : bytes = fieldBytes ((pre ++ (l.flatMap Contribution.fields ++
        List.replicate (n - l.length) (7, 0))) ++ (7, 0) :: List.replicate (5 - n) (7, 0)) := by
      simp only [bytes, cut, List.append_assoc]
    have offset : widthOf (pre ++ (l.flatMap Contribution.fields ++
        List.replicate (n - l.length) (7, 0))) = 76 + 7 * n - 8 := by
      rw [widthOf_append, widthOf_append, widthOf_flatMap (size := 7) (fun _ => rfl),
        widthOf_replicate, width]
      omega
    have read := fieldAt_fields (w := 7) (x := 0) (post := List.replicate (5 - n) (7, 0))
      (tail := []) offset
    rw [List.append_nil, ← split] at read
    exact read

theorem find_owner {id : OwnerId} (valid : invalidOwner id = false) :
    (s.findOwner id = none → s.find 1 id.toNat = .missing []) ∧
    ∀ o, s.findOwner id = some o → s.find 1 id.toNat = .contents (s.ownerFields o) := by
  have name : BitVec.ofNat 32 id.toNat = id := by simp
  have range : ¬ (invalidOwner id = true ∨ maxCount < id.toNat) := by
    have := id.isLt
    rintro (bad | high)
    · rw [valid] at bad
      cases bad
    · exact absurd this (Nat.not_lt.mpr high)
  refine ⟨fun absent => ?_, fun o found => ?_⟩
  · rw [State.find, name, if_neg range, absent]
  · rw [State.find, name, if_neg range, found]

/-- Settles O45: the request's answers, then table by table what the keys find. -/
theorem inspectReturnsOnePart : Obligations.InspectReturnsOnePart := by
  unfold Obligations.InspectReturnsOnePart
  refine ⟨fun s r q => inspect_answers, find_badKey, fun s id valid => ?_,
    fun s key => find_reservation, fun s => find_peer, fun s => find_volume,
    fun s id epoch => find_snapshot, fun s => find_restore, find_image⟩
  refine ⟨(find_owner valid).1, fun o found few => ⟨s.ownerFields o, (find_owner valid).2 o found,
    ?_, ?_, fun n range => ?_⟩⟩
  · rw [length_fieldBytes, ownerFields_eq, widthOf_append, widthOf_append, widthOf_ownerRows,
      widthOf_flatMap (size := 7) (fun _ => rfl), widthOf_replicate]
    omega
  · have read := laid_read (pre := []) (n := 8)
      (tail := fieldBytes (o.contributions.flatMap Contribution.fields ++
        List.replicate (6 - o.contributions.length) (7, 0))) (ownerRows_laid s o)
    rw [List.nil_append, ← fieldBytes_append, ← ownerFields_eq] at read
    exact read
  · have read := places_read (widthOf_ownerRows s o) few range
    rw [← ownerFields_eq] at read
    exact read

end Sys2Proof.Proofs

/-! PROOFS. The frames that the part sends (R50, R53 to R57): what the steps that fill a slot leave
of the link. -/

namespace Sys2Proof.Proofs

open Sys2Proof.Machine Sys2Proof.Safety

variable {s t u : State} {o : Owner} {l : Link} {serving : Bool} {chosen : List (OwnerId × Nat)}
  {bs : List Block}

/-! ### The owners of a USAGE frame -/

/-- The choice reads the records, the image and the uptime. -/
theorem usageChoice_congr (owners : t.owners = s.owners) (image : t.image = s.image)
    (time : t.time = s.time) : usageChoice t = usageChoice s := by
  have cfg : t.cfg = s.cfg := by rw [State.cfg, image, State.cfg]
  have due : isReportDue t = isReportDue s := by
    funext o
    unfold isReportDue State.classRec
    rw [cfg]
  have late : isOverdue t = isOverdue s := by
    funext o
    unfold isOverdue
    rw [cfg, time]
  unfold usageChoice
  rw [owners, due, late]

theorem usageChoice_of_changes (hp : .owners ∉ bs ∧ .time ∉ bs) (h : ChangesOnly bs s t) :
    usageChoice t = usageChoice s :=
  usageChoice_congr (h.2 .owners hp.1) h.1.2.2.2.2.1 (h.2 .time hp.2)

/-- A report-due record is chosen, or others fill the frame. -/
theorem usageChoice_nonempty (mem : o ∈ s.owners) (due : isReportDue s o = true) :
    usageChoice s ≠ [] := by
  have listed : o ∈ s.owners.filter (isReportDue s) := List.mem_filter.mpr ⟨mem, due⟩
  unfold usageChoice
  intro none
  rw [List.map_eq_nil_iff, List.take_eq_nil_iff] at none
  rcases none with none | none
  · cases none
  · rw [List.append_eq_nil_iff] at none
    rw [none.1] at listed
    cases listed

/-! ### The slots of an ACTIVE link -/

theorem fillLink_held (active : l.state = .active) (held : l.announceSlot = .held) :
    fillLink l = { l with replaced := l.replaced || l.onPair.isSome } := by
  unfold fillLink
  rw [if_pos active, held]
  cases h : l.onPair.isSome <;> cases l <;> simp_all

theorem fillLink_free (active : l.state = .active) (free : l.announceSlot ≠ .held) :
    fillLink l = { l with announceSlot := .waiting } := by
  unfold fillLink
  rw [if_pos active]
  cases h : l.announceSlot with
  | empty => rfl
  | waiting => cases l; simp_all
  | held => exact absurd h free

/-- A composition into an EMPTY slot of an ACTIVE link in SERVING, or none. -/
theorem composeLink_eq (active : l.state = .active) : composeLink serving chosen l =
    if (l.usageSlot == .empty && serving && !chosen.isEmpty) = true then
      { l with usageSlot := .waiting, usageEntries := chosen } else l := by
  unfold composeLink
  refine if_congr ?_ rfl rfl
  cases chosen <;> simp [active, and_comm]

theorem takeLink_busy (h : l.announceSlot = .held ∨ l.usageSlot = .held) : takeLink l = l := by
  unfold takeLink
  rw [if_neg]
  rcases h with h | h <;> simp [Link.transmitterFree, h]

theorem takeLink_announce (waiting : l.announceSlot = .waiting) (free : l.usageSlot ≠ .held) :
    takeLink l = { l with announceSlot := .held, attempts := 0, backoff := none, onPair := none,
                          replaced := false } := by
  unfold takeLink
  rw [if_pos (by simp [Link.transmitterFree, waiting, free]), if_pos waiting]

theorem takeLink_usage (idle : l.announceSlot = .empty) (waiting : l.usageSlot = .waiting) :
    takeLink l = { l with usageSlot := .held, attempts := 0, backoff := none, onPair := none,
                          replaced := false } := by
  unfold takeLink
  rw [if_pos (by simp [Link.transmitterFree, waiting, idle]), if_neg (by simp [idle]),
    if_pos waiting]

/-- The slots behind an expiry in ACTIVE (R49, R53 to R55). -/
theorem expiry_slots (active : l.state = .active) :
    let composes : Bool := l.usageSlot == .empty && serving && !chosen.isEmpty
    let m := takeLink (composeLink serving chosen (fillLink l))
    m.announceSlot = (if l.usageSlot = .held ∧ l.announceSlot ≠ .held then .waiting else .held) ∧
    m.usageSlot = (if composes then .waiting else l.usageSlot) ∧
    m.usageEntries = (if composes then chosen else l.usageEntries) ∧
    (l.announceSlot = .held → m.attempts = l.attempts ∧ m.backoff = l.backoff ∧
      m.onPair = l.onPair ∧ m.replaced = (l.replaced || l.onPair.isSome)) ∧
    (l.announceSlot ≠ .held → l.usageSlot ≠ .held → m.attempts = 0 ∧ m.backoff = none ∧
      m.onPair = none) := by
  intro composes m
  by_cases held : l.announceSlot = .held
  · let filled : Link := { l with replaced := l.replaced || l.onPair.isSome }
    have whole : m = if composes then
        { filled with usageSlot := .waiting, usageEntries := chosen } else filled := by
      change takeLink (composeLink serving chosen (fillLink l)) = _
      rw [fillLink_held active held, composeLink_eq (l := filled) active]
      refine takeLink_busy (.inl ?_)
      split <;> exact held
    rw [whole]
    cases composes <;> simp [filled, held]
  · let filled : Link := { l with announceSlot := .waiting }
    let composed : Link := if composes then
        { filled with usageSlot := .waiting, usageEntries := chosen } else filled
    have whole : m = takeLink composed := by
      change takeLink (composeLink serving chosen (fillLink l)) = _
      rw [fillLink_free active held, composeLink_eq (l := filled) active]
    have waiting : composed.announceSlot = .waiting := by
      simp only [composed]
      split <;> rfl
    have usage : composed.usageSlot = if composes then .waiting else l.usageSlot := by
      simp only [composed]
      split <;> rfl
    have entries : composed.usageEntries = if composes then chosen else l.usageEntries := by
      simp only [composed]
      split <;> rfl
    by_cases busy : l.usageSlot = .held
    · have idle : composes = false := by simp [composes, busy]
      have kept : m = composed :=
        whole.trans (takeLink_busy (.inr (usage.trans (by rw [idle]; exact busy))))
      rw [kept, waiting, usage, entries, if_pos ⟨busy, held⟩]
      exact ⟨rfl, rfl, rfl, fun h => absurd h held, fun _ h => absurd busy h⟩
    · have free : composed.usageSlot ≠ .held := by
        rw [usage]
        split
        · decide
        · exact busy
      rw [whole, takeLink_announce waiting free, if_neg fun h => busy h.1]
      exact ⟨rfl, usage, entries, fun h => absurd h held, fun _ _ => ⟨rfl, rfl, rfl⟩⟩

/-! ### The announce timer -/

/-- The figures side of an expiry, in front of the slots (R156). -/
def reckoned (next : Nat) (s : State) : State :=
  (s.setLink { s.link with announceNext := some next
    }).recomputeShare.testAtRisk.flushEvent.issuePass

theorem announceTimerExpiry_due {d : Nat} (released : s.rst = false)
    (timer : s.link.announceNext = some d) (due : d ≤ s.time.uptime) :
    exec .announceTimerExpiry s =
      .next (reckoned (d + secondsMs s.cfg.announceInterval) s).announceSlots := by
  change execAnnounceTimerExpiry s = _
  unfold execAnnounceTimerExpiry whenReleased
  dsimp only
  rw [if_neg (by simp [released]), timer]
  exact congrArg _ (if_pos (decide_eq_true due))

theorem reckoned_changes (next : Nat) (s : State) :
    ChangesOnly [.cat, .pool, .dup, .port] (s.setLink { s.link with announceNext := some next })
      (reckoned next s) :=
  andThen (by decide) (andThen (by decide) (andThen (by decide) (within (by decide)
    (recomputeShare_changes _)) (testAtRisk_changes _)) (flushEvent_changes _))
      (issuePass_changes _)

theorem announceSlots_active (active : s.link.state = .active) : s.announceSlots =
    s.setLink (takeLink (composeLink (s.part == .serving) (usageChoice s) (fillLink s.link))) := by
  have awake : ¬ s.link.state = .listening := by
    rw [active]
    decide
  unfold State.announceSlots
  dsimp only
  rw [if_neg awake, if_pos active, takeSlot_eq, composeUsage_eq, fillAnnounce_eq]
  rfl

/-- An expiry in ACTIVE fills the ANNOUNCE slot and composes a USAGE frame. -/
theorem expiry_fills {d : Nat} (released : s.rst = false)
    (timer : s.link.announceNext = some d) (due : d ≤ s.time.uptime)
    (active : s.link.state = .active) :
    let chosen := usageChoice s
    let composes : Bool := s.link.usageSlot == .empty && s.part == .serving && !chosen.isEmpty
    ∃ t, exec .announceTimerExpiry s = .next t ∧ t.link.peers = s.link.peers ∧
      t.owners = s.owners ∧
      t.link.announceSlot = (if s.link.usageSlot = .held ∧ s.link.announceSlot ≠ .held then
        .waiting else .held) ∧
      t.link.usageSlot = (if composes then .waiting else s.link.usageSlot) ∧
      t.link.usageEntries = (if composes then chosen else s.link.usageEntries) ∧
      (s.link.announceSlot = .held → t.link.attempts = s.link.attempts ∧
        t.link.backoff = s.link.backoff ∧ t.link.onPair = s.link.onPair ∧
        t.link.replaced = (s.link.replaced || s.link.onPair.isSome)) ∧
      (s.link.announceSlot ≠ .held → s.link.usageSlot ≠ .held → t.link.attempts = 0 ∧
        t.link.backoff = none ∧ t.link.onPair = none) := by
  intro chosen composes
  let next := d + secondsMs s.cfg.announceInterval
  let timed : Link := { s.link with announceNext := some next }
  have only := reckoned_changes next s
  have link : (reckoned next s).link = timed := only.2 .link (by decide)
  have part : (reckoned next s).part = s.part := only.1.2.1
  have choice : usageChoice (reckoned next s) = chosen :=
    usageChoice_congr (only.2 .owners (by decide)) only.1.2.2.2.2.1 (only.2 .time (by decide))
  have slots := announceSlots_active (s := reckoned next s) (by rw [link]; exact active)
  rw [link, part, choice] at slots
  refine ⟨_, announceTimerExpiry_due released timer due, ?_⟩
  rw [slots]
  refine ⟨?_, only.2 .owners (by decide), expiry_slots (l := timed) active⟩
  have keeps := slots_keep (s.part == .serving) chosen
  have filled := (keeps timed (fillLink timed) (by simp)).2.2.2
  have composed := (keeps (fillLink timed)
    (composeLink (s.part == .serving) chosen (fillLink timed)) (by simp)).2.2.2
  have taken := (keeps (composeLink (s.part == .serving) chosen (fillLink timed))
    (takeLink (composeLink (s.part == .serving) chosen (fillLink timed))) (by simp)).2.2.2
  exact taken.trans (composed.trans filled)

/-! ### The success of a USAGE frame -/

/-- The slots behind the end of a USAGE frame. -/
theorem sent_slots (active : l.state = .active) (announce : l.announceSlot ≠ .held)
    (usage : l.usageSlot = .empty) (none : l.usageEntries = []) :
    let m := takeLink (composeLink true chosen l)
    m.announceSlot = (if l.announceSlot = .waiting then .held else .empty) ∧
    m.usageEntries = chosen ∧
    m.usageSlot = (if chosen = [] then .empty
      else if l.announceSlot = .waiting then .waiting else .held) := by
  intro m
  let composed : Link := if chosen = [] then l else
    { l with usageSlot := .waiting, usageEntries := chosen }
  have whole : m = takeLink composed := by
    change takeLink (composeLink true chosen l) = _
    rw [composeLink_eq active, usage]
    cases chosen <;> rfl
  have first : composed.announceSlot = l.announceSlot := by
    simp only [composed]
    split <;> rfl
  have second : composed.usageSlot = if chosen = [] then .empty else .waiting := by
    simp only [composed]
    split
    · exact usage
    · rfl
  have entries : composed.usageEntries = chosen := by
    simp only [composed]
    split
    · rename_i empty
      rw [none, empty]
    · rfl
  by_cases waiting : l.announceSlot = .waiting
  · have free : composed.usageSlot ≠ .held := by
      rw [second]
      split <;> decide
    rw [whole, takeLink_announce (first.trans waiting) free, if_pos waiting, if_pos waiting]
    exact ⟨rfl, entries, second⟩
  · have empty : composed.announceSlot = .empty := by
      rw [first]
      cases h : l.announceSlot with
      | empty => rfl
      | waiting => exact absurd h waiting
      | held => exact absurd h announce
    rw [if_neg waiting, if_neg waiting, whole]
    by_cases nothing : chosen = []
    · rw [if_pos nothing] at second ⊢
      rw [takeLink_idle (by simp [empty]) (by simp [second])]
      exact ⟨empty, entries, second⟩
    · rw [if_neg nothing] at second ⊢
      rw [takeLink_usage empty second]
      exact ⟨empty, entries, rfl⟩

theorem success_composes {f : Bytes} (released : s.rst = false) (driving : s.link.onPair = some f)
    (announce : s.link.announceSlot ≠ .held) (active : s.link.state = .active)
    (serving : s.part = .serving) :
    ∃ t, exec .attemptSuccess s = .next t ∧
      t.link.announceSlot = (if s.link.announceSlot = .waiting then .held else .empty) ∧
      t.link.usageEntries = usageChoice t ∧
      t.link.usageSlot = (if usageChoice t = [] then .empty
        else if s.link.announceSlot = .waiting then .waiting else .held) := by
  let emptied : Link := { s.link with
    usageSlot := .empty, usageEntries := [], attempts := 0, onPair := none, replaced := false }
  let u := s.recordSend.setLink emptied
  have part : u.part = .serving := (recordSend_changes s).1.2.1.trans serving
  have choice : usageChoice u.composeUsage.takeSlot = usageChoice u :=
    usageChoice_of_changes (bs := [.link]) (by decide)
      ((composeUsage_changes u).trans (takeSlot_changes _))
  have link : u.composeUsage.takeSlot.link = takeLink (composeLink true
    (usageChoice u) emptied) := by
    rw [takeSlot_eq, composeUsage_eq, part]
    rfl
  refine ⟨_, attemptSuccess_usage released driving announce, ?_⟩
  change u.composeUsage.takeSlot.link.announceSlot = _ ∧
    u.composeUsage.takeSlot.link.usageEntries = usageChoice u.composeUsage.takeSlot ∧
    u.composeUsage.takeSlot.link.usageSlot = _
  rw [choice, link]
  exact sent_slots (l := emptied) active announce rfl rfl

/-! ### A change of local used -/

/-- The slots behind a change of used that leaves its owner report-due. -/
theorem used_slots (active : l.state = .active) (announce : l.announceSlot = .empty)
    (usage : l.usageSlot = .empty) (some : chosen ≠ []) :
    takeLink (composeLink true chosen l) = { l with
      usageSlot := .held, usageEntries := chosen, attempts := 0, backoff := none, onPair := none,
      replaced := false } := by
  have composed : composeLink true chosen l =
      { l with usageSlot := .waiting, usageEntries := chosen } := by
    rw [composeLink_eq active, if_pos (by simp [usage, some])]
  rw [composed]
  exact takeLink_usage (l := { l with usageSlot := .waiting, usageEntries := chosen }) announce rfl

theorem isReportDue_congr {p : Owner} (image : t.image = s.image) (cls : p.cls = o.cls)
    (used : p.used = o.used) (reported : p.lastReported = o.lastReported) :
    isReportDue t p = isReportDue s o := by
  unfold isReportDue State.classRec State.cfg
  rw [image, cls, used, reported]

@[simp] theorem reevaluate_lastReported (s : State) (o : Owner) :
    (s.reevaluate o).lastReported = o.lastReported := by
  unfold State.reevaluate
  split
  · split <;> rfl
  · rfl

theorem releaseQuota_link {id : OwnerId} {b : Nat} (found : s.findOwner id = some o)
    (serving : s.part = .serving) (active : s.link.state = .active)
    (announce : s.link.announceSlot = .empty) (usage : s.link.usageSlot = .empty) :
    let p := { o with used := o.used - b }
    let t := s.releaseQuota id b
    (p.used ≠ o.used → isReportDue s p = true → t.link.usageSlot = .held ∧
      t.link.usageEntries = usageChoice t ∧ t.link.attempts = 0) ∧
    (p.used = o.used ∨ isReportDue s p = false → t.link = s.link) := by
  intro p t
  let f : Owner → Owner := fun o => { o with used := o.used - b, lastCharge := s.now }
  let w := if o.used < b then (s.touchOwner id f).raise .usageUnderflow id.toNat
    else s.touchOwner id f
  have run : t = w.usedChanged id o.used := by
    change s.releaseQuota id b = _
    unfold State.releaseQuota
    rw [found]
  have raised : ChangesOnly [.port] (s.touchOwner id f) w := .ite (fun _ => raise_changes ..)
    fun _ => .refl _ _
  have only : ChangesOnly [.owners, .port] s w :=
    (within (by decide) (touchOwner_changes ..)).trans (within (by decide) raised)
  have stands : w.findOwner id = some (s.reevaluate (f o)) :=
    (findOwner_of_changes (by decide) raised id).trans (findOwner_touchOwner s found rfl)
  have link : w.link = s.link := only.2 .link (by decide)
  have part : w.part = .serving := only.1.2.1.trans serving
  have due : isReportDue w (s.reevaluate (f o)) = isReportDue s p :=
    isReportDue_congr only.1.2.2.2.2.1 (reevaluate_cls ..) (reevaluate_used s (f o))
      (reevaluate_lastReported ..)
  rw [run, usedChanged_eq stands, reevaluate_used, due, part, link]
  refine ⟨fun changed isDue => ?_, fun not => ?_⟩
  · have some := usageChoice_nonempty (findOwner_mem stands) (due.trans isDue)
    rw [if_pos ⟨changed, isDue⟩, show (PartState.serving == PartState.serving) = true from rfl,
      used_slots active announce usage some]
    exact ⟨rfl, rfl, rfl⟩
  · rw [if_neg, link]
    rintro ⟨changed, isDue⟩
    rcases not with same | early
    · exact changed same
    · rw [isDue] at early
      cases early

/-- A RELEASE is served in SERVING only (R166). -/
theorem serving_of_served {p : PartState} (h : servedIn p 5 = true) : p = .serving := by
  cases p with
  | serving => rfl
  | configuring => cases h
  | halted => cases h
  | loading => cases h

theorem release_composes {r : Bytes} {q : ReleaseReq} {i : Fin 8} {v : Volume}
    (takes : Takes s 5 r) (parsed : parseRelease r = some q) (valid : invalidOwner q.owner = false)
    (volume : q.volume ≠ 0) (high : q.blocks ≤ 16777215) (named : s.findVol q.volume = some (i, v))
    (birth : q.birth ≤ v.openEpoch) (extent : q.start + q.length ≤ v.size)
    (found : s.findOwner q.owner = some o) (active : s.link.state = .active)
    (announce : s.link.announceSlot = .empty) (usage : s.link.usageSlot = .empty) :
    let p := { o with used := o.used - q.blocks }
    ∃ t, exec .release s = .next t ∧
      (p.used ≠ o.used → isReportDue s p = true → t.link.usageSlot = .held ∧
        t.link.usageEntries = usageChoice t ∧ t.link.attempts = 0) ∧
      (p.used = o.used ∨ isReportDue s p = false → t.link = s.link) := by
  intro p
  have serving : s.part = .serving := serving_of_served takes.served
  have run : exec .release s = .next (releaseRequest (recordTag r) q s.dropHead) :=
    whenReleased_taken takes parsed
  unfold releaseRequest at run
  rw [if_neg (by simp [valid, volume, maxRequestBlocks]; omega),
    show s.dropHead.findVol q.volume = some (i, v) from named] at run
  dsimp only at run
  rw [if_neg (by simp [Volume.reachesPast]; omega)] at run
  have rest := releaseRest_changes (recordTag r) q i v
    (if (s.dropHead.findOwner q.owner).isSome then .ok else .untracked)
    (fun freed kept a => .release (a.usedOf q.owner) freed kept)
    (s.dropHead.releaseQuota q.owner q.blocks)
  obtain ⟨composes, keeps⟩ := releaseQuota_link (s := s.dropHead) (b := q.blocks) found serving
    active announce usage
  refine ⟨_, run, fun changed due => ?_, fun not => ?_⟩
  · rw [usageChoice_of_changes (by decide) rest, show State.link _ = _ from rest.2 .link (by
      decide)]
    exact composes changed due
  · exact (rest.2 .link (by decide)).trans (keeps not)

/-! ### LOAD_DONE -/

theorem loadDone_composes {r : Bytes} {g : Nat} (takes : Takes s 27 r)
    (parsed : parseNumber2 r = some g) (nonzero : g ≠ 0) :
    ∃ t, exec .loadDone s = .next t ∧
      (s.link.state ≠ .active → t.link.announceSlot = s.link.announceSlot ∧
        t.link.usageSlot = s.link.usageSlot) ∧
      (s.link.state = .active → s.link.announceSlot = .empty → s.link.usageSlot = .empty →
        t.link.announceSlot = .held ∧ t.link.attempts = 0 ∧
        t.link.usageSlot = (if usageChoice t = [] then .empty else .waiting) ∧
        (usageChoice t ≠ [] → t.link.usageEntries = usageChoice t)) := by
  have run : exec .loadDone s = .next (loadDoneRequest (recordTag r) g s.dropHead) :=
    whenReleased_taken takes parsed
  obtain ⟨b, starts⟩ : ∃ b, loadDoneRequest (recordTag r) g s.dropHead =
      started g (recordTag r) b s.dropHead := ⟨_, loadDoneRequest_eq nonzero⟩
  rw [starts] at run
  let u := (inService g s.dropHead).answer 27 (recordTag r) .ok b
  obtain ⟨part, -, -, -, -, -, -, -, -, link⟩ := inService_fields g s.dropHead
  have told : ChangesOnly [.port] (inService g s.dropHead) u := answer_changes ..
  have ofLink : u.link = { s.link with
      generation := g, rng := { station := s.station, generation := g, drawn := 0 } } :=
    (told.2 .link (by decide)).trans link
  have ofPart : u.part = .serving := told.1.2.1.trans part
  have choice : usageChoice (started g (recordTag r) b s.dropHead) = usageChoice u :=
    usageChoice_of_changes (by decide) (afterService_changes u)
  have final : (started g (recordTag r) b s.dropHead).link = if u.link.state = .active then
      takeLink (composeLink true (usageChoice u) (fillLink u.link)) else u.link := by
    have := (afterService_link u).trans (announceServing_link u)
    rwa [ofPart] at this
  refine ⟨_, run, fun idle => ?_, fun active announce usage => ?_⟩
  · rw [final, if_neg (by rw [ofLink]; exact idle), ofLink]
    exact ⟨rfl, rfl⟩
  · have awake : u.link.state = .active := by rw [ofLink]; exact active
    have empty : u.link.announceSlot = .empty := by rw [ofLink]; exact announce
    have free : u.link.usageSlot = .empty := by rw [ofLink]; exact usage
    obtain ⟨first, second, entries, -, fresh⟩ :=
      expiry_slots (serving := true) (chosen := usageChoice u) awake
    rw [final, if_pos awake, choice]
    rw [free, if_neg (by simp)] at first
    refine ⟨first, (fresh (by simp [empty]) (by simp [free])).1, ?_, fun some => ?_⟩
    · rw [second, free]
      cases usageChoice u <;> rfl
    · rw [entries, if_pos (by simp [free, some])]

/-! ### The frame driven -/

theorem attempt_drives (released : s.rst = false) (quiet : s.link.backoff = none)
    (idle : s.link.onPair = none) :
    (s.link.announceSlot = .held → ∃ t, exec .transmitAttemptStart s = .next t ∧
      t.link.onPair = some (if s.part = .serving then
          announceBytes s.station.val s.link.generation .serving
            (decide (s.dup.window = .opened)) s.ownBacklog s.dup.share s.owners.length
        else announceBytes s.station.val 0 .loading false 0 0 s.owners.length)) ∧
    (s.link.announceSlot ≠ .held → s.link.usageSlot = .held →
      ∃ t, exec .transmitAttemptStart s = .next t ∧ t.link.onPair =
        some (usageBytes s.station.val s.link.generation s.link.usageEntries)) := by
  constructor
  · intro held
    have frame : s.heldFrame = some s.announceFrame := if_pos held
    refine ⟨_, transmitAttemptStart_drives released frame quiet idle, ?_⟩
    have window : (s.dup.window == .opened) = decide (s.dup.window = .opened) := by
      rw [Bool.eq_iff_iff, beq_iff_eq, decide_eq_true_eq]
    change some s.announceFrame = _
    unfold State.announceFrame
    rw [window]
  · intro announce held
    have frame : s.heldFrame =
        some (usageBytes s.station.val s.link.generation s.link.usageEntries) :=
      (if_neg announce).trans (if_pos held)
    exact ⟨_, transmitAttemptStart_drives released frame quiet idle, rfl⟩

end Sys2Proof.Proofs

/-! PROOFS. The figures of the night (R155, R156, R158, R159): backlog, estimate and share, and the
serving order. -/

namespace Sys2Proof.Proofs

open Sys2Proof.Machine Sys2Proof.Safety

variable {s : State} {i : Fin 8} {v : Volume} {ratio : Nat}

/-! ### Backlog (R155) -/

theorem ceilDiv_of_pos {a b : Nat} (h : b ≠ 0) : ceilDiv a b = (a + b - 1) / b := by
  unfold ceilDiv
  rw [if_neg h]

theorem regionCost_eq (ratio length : Nat) :
    regionCost ratio length = (length * ratio + 999) / 1000 := by
  unfold regionCost
  rw [ceilDiv_of_pos (by decide), Nat.add_sub_assoc (by decide)]

/-- Whole regions and a rest, cut from the left. -/
theorem sum_regions {cost : Nat → Nat} (zero : cost 0 = 0) {region : Nat} (pos : 0 < region)
    (left : Nat) :
    ((List.range ((left + (region - 1)) / region)).map fun n =>
      cost (min region (left - n * region))).sum =
      left / region * cost region + cost (left % region) := by
  obtain ⟨k, rest, range, rfl⟩ : ∃ k rest, rest < region ∧ left = k * region + rest :=
    ⟨left / region, left % region, Nat.mod_lt _ pos, (Nat.div_add_mod' left region).symm⟩
  have quotient : (k * region + rest) / region = k := by
    rw [Nat.mul_comm, Nat.mul_add_div pos, Nat.div_eq_of_lt range, Nat.add_zero]
  have remainder : (k * region + rest) % region = rest := by
    rw [Nat.mul_comm, Nat.mul_add_mod, Nat.mod_eq_of_lt range]
  have whole : ((List.range k).map fun n => cost (min region
    (k * region + rest - n * region))).sum =
      k * cost region := by
    have each : ∀ n ∈ List.range k,
        cost (min region (k * region + rest - n * region)) = cost region := by
      intro n hn
      have below : (n + 1) * region ≤ k * region :=
        Nat.mul_le_mul_right _ (List.mem_range.mp hn)
      rw [Nat.min_eq_left (by rw [Nat.succ_mul] at below; omega)]
    rw [List.map_congr_left each, List.map_const', List.sum_replicate, List.length_range,
      smul_eq_mul]
  rw [quotient, remainder]
  by_cases none : rest = 0
  · subst none
    have count : (k * region + 0 + (region - 1)) / region = k := by
      rw [Nat.add_zero, Nat.mul_comm, Nat.mul_add_div pos, Nat.div_eq_of_lt (by omega),
        Nat.add_zero]
    rw [count, whole, zero, Nat.add_zero]
  · have count : (k * region + rest + (region - 1)) / region = k + 1 := by
      have : k * region + rest + (region - 1) = region * (k + 1) + (rest - 1) := by
        rw [Nat.mul_succ, Nat.mul_comm region k]
        omega
      rw [this, Nat.mul_add_div pos, Nat.div_eq_of_lt (by omega), Nat.add_zero]
    rw [count, List.range_succ, List.map_append, List.sum_append, whole, List.map_singleton,
      List.sum_singleton, Nat.add_sub_cancel_left, Nat.min_eq_right range.le]

/-- The region costs from the cursor on (R155). -/
theorem regionCostsFrom_eq (ratio cursor size : Nat) : regionCostsFrom ratio cursor size =
    ((List.range ((size - cursor + 262143) / 262144)).map fun n =>
      (min 262144 (size - cursor - n * 262144) * ratio + 999) / 1000).sum := by
  have regions := sum_regions (cost := fun length => (length * ratio + 999) / 1000)
    (by rw [Nat.zero_mul]) (region := 262144) (by decide) (size - cursor)
  unfold regionCostsFrom
  simp only [regionCost_eq]
  exact regions.symm

theorem backlogOf_eq (s : State) (i : Fin 8) (v : Volume) :
    let ratio := s.cfg.scanRatio
    let cost := fun length => (length * ratio + 999) / 1000
    let listed := match v.send with
      | .extents l => (l.map (·.length)).sum
      | .scan cursor => ((List.range ((v.size - cursor + 262143) / 262144)).map fun n =>
          cost (min 262144 (v.size - cursor - n * 262144))).sum
    let out := (s.ticketsOut.filter (·.slot == i)).map fun x => match x.work with
      | .extents pieces => (pieces.map (·.length)).sum
      | .scan _ length => cost length
    s.backlogOf i v = min (listed + out.sum) 4294967295 := by
  intro ratio cost listed out
  have tickets : (s.ticketsOf i).map (·.backlog ratio) = out := by
    refine List.map_congr_left fun x _ => ?_
    unfold Ticket.backlog
    cases x.work with
    | extents pieces => rfl
    | scan start length => exact regionCost_eq ratio length
  have list : (match v.send with
      | .extents l => blockTotal l
      | .scan cursor => regionCostsFrom ratio cursor v.size) = listed := by
    simp only [listed]
    cases v.send with
    | extents l => rfl
    | scan cursor => exact regionCostsFrom_eq ratio cursor v.size
  exact congrArg₂ (fun a b => min (a + b.sum) 4294967295) list tickets

/-! ### Estimate (R158) -/

theorem estimate_eq (s : State) (i : Fin 8) (v : Volume) :
    let share := s.dup.share
    let profile := s.profileOf v
    let backlog := s.backlogOf i v
    let tickets := (backlog + profile.maxBlocks - 1) / profile.maxBlocks
    let transfer := (backlog * 1000 + share - 1) / share
    let perTicket := (profile.maxBlocks * 1000 + share - 1) / share
    (share = 0 → s.estimate i v = none) ∧
    (share ≠ 0 → backlog = 0 → s.estimate i v = some 0) ∧
    (share ≠ 0 → backlog ≠ 0 → profile.maxBlocks ≠ 0 → s.estimate i v = some (transfer +
      if profile.depth = 1 then tickets * profile.overhead
      else profile.overhead + (tickets - 1) * (profile.overhead - perTicket))) := by
  intro share profile backlog tickets transfer perTicket
  refine ⟨fun none => ?_, fun some zero => ?_, fun some work size => ?_⟩
  · exact if_pos none
  · exact (if_neg some).trans (if_pos zero)
  · refine ((if_neg some).trans (if_neg work)).trans ?_
    rw [ceilDiv_of_pos (b := profile.maxBlocks) size, ceilDiv_of_pos (b := share) some,
      ceilDiv_of_pos (b := share) some]
    split
    · rfl
    · exact congrArg Option.some (Nat.add_assoc ..)

/-! ### B, P and the share (R155, R156) -/

theorem sum_filter {α : Type} {p : α → Bool} {f : α → Nat} (l : List α) :
    ((l.filter p).map f).sum = (l.map fun x => if p x = true then f x else 0).sum := by
  induction l with
  | nil => rfl
  | cons x xs ih =>
    by_cases h : p x = true
    · simp [h, ih]
    · simp [h, ih]

theorem backlogs_eq (s : State) :
    s.ownBacklog = (if s.dup.window = .opened then
      min ((List.finRange 8).map fun i => match s.vol i with
        | some v => if v.dup = .sending then s.backlogOf i v else 0
        | none => 0).sum 4294967295 else 0) ∧
    s.peerBacklog = (((List.finRange 16).filter fun i =>
      (s.peer i).state == .live && (s.peer i).window).map fun i => (s.peer i).backlog).sum := by
  have volumes : slots8 = List.finRange 8 := by decide
  have stations : slots16 = List.finRange 16 := by decide
  constructor
  · rw [← volumes]
    rfl
  · rw [sum_filter, ← stations]
    unfold State.peerBacklog
    refine congrArg List.sum (List.map_congr_left fun i _ => ?_)
    simp

theorem shareOf_eq (g : Image) (b p : Nat) : shareOf g b p = if b = 0 then 0
    else min (max (g.uplink * b / (b + p)) (g.uplink * g.minShare / 1000))
      (min g.uplink g.stationCap) := rfl

/-! ### The serving order (R159) -/

/-- x is served before y: by ascending estimate, then by slot, an unknown estimate last. -/
def Serves (x y : Fin 8 × Option Nat) : Prop :=
  match x.2, y.2 with
  | some a, some b => a < b ∨ (a = b ∧ x.1 < y.1)
  | some _, none => True
  | none, some _ => False
  | none, none => x.1 < y.1

/-- x has the smaller estimate, or is the only one of the two to have one. -/
def Sooner (x y : Fin 8 × Option Nat) : Bool :=
  match x.2, y.2 with
  | some a, some b => decide (a < b)
  | some _, none => true
  | none, _ => false

theorem insertByEstimate_cons (x y : Fin 8 × Option Nat) (ys : List (Fin 8 × Option Nat)) :
    insertByEstimate x (y :: ys) =
      if Sooner x y = true then x :: y :: ys else y :: insertByEstimate x ys := rfl

theorem serves_of_sooner {x y : Fin 8 × Option Nat} (h : Sooner x y = true) : Serves x y := by
  obtain ⟨i, a⟩ := x
  obtain ⟨j, b⟩ := y
  cases a with
  | none => cases h
  | some a =>
    cases b with
    | none => trivial
    | some b => exact .inl (of_decide_eq_true h)

theorem sooner_trans {x y z : Fin 8 × Option Nat} (h : Sooner x y = true) (hyz : Serves y z) :
    Serves x z := by
  obtain ⟨i, a⟩ := x
  obtain ⟨j, b⟩ := y
  obtain ⟨k, c⟩ := z
  cases a with
  | none => cases h
  | some a =>
    cases c with
    | none => trivial
    | some c =>
      cases b with
      | none => cases hyz
      | some b =>
        have lt : a < b := of_decide_eq_true h
        rcases hyz with less | ⟨eq, -⟩
        · exact .inl (lt.trans less)
        · exact .inl (eq ▸ lt)

theorem serves_of_not_sooner {x y : Fin 8 × Option Nat} (h : ¬ Sooner x y = true)
    (lower : y.1 < x.1) : Serves y x := by
  obtain ⟨i, a⟩ := x
  obtain ⟨j, b⟩ := y
  cases a with
  | none =>
    cases b with
    | none => exact lower
    | some b => trivial
  | some a =>
    cases b with
    | none => exact absurd rfl h
    | some b =>
      have le : b ≤ a := by
        by_contra gt
        exact h (decide_eq_true (Nat.not_le.mp gt))
      exact (Nat.lt_or_eq_of_le le).imp id fun eq => ⟨eq, lower⟩

theorem mem_insertByEstimate {x y : Fin 8 × Option Nat} {l : List (Fin 8 × Option Nat)} :
    y ∈ insertByEstimate x l ↔ y = x ∨ y ∈ l := by
  induction l with
  | nil => simp [insertByEstimate]
  | cons z zs ih =>
    rw [insertByEstimate_cons]
    split
    · rw [List.mem_cons]
    · rw [List.mem_cons, ih, List.mem_cons]
      tauto

/-- An element of a higher slot joins a list in serving order. -/
theorem insertByEstimate_ordered {x : Fin 8 × Option Nat} {l : List (Fin 8 × Option Nat)}
    (ordered : l.Pairwise Serves) (lower : ∀ y ∈ l, y.1 < x.1) :
    (insertByEstimate x l).Pairwise Serves := by
  induction l with
  | nil => exact List.pairwise_singleton _ _
  | cons y ys ih =>
    obtain ⟨first, rest⟩ := List.pairwise_cons.mp ordered
    rw [insertByEstimate_cons]
    split
    · rename_i sooner
      refine List.pairwise_cons.mpr ⟨fun z hz => ?_, ordered⟩
      rcases List.mem_cons.mp hz with rfl | hz
      · exact serves_of_sooner sooner
      · exact sooner_trans sooner (first z hz)
    · rename_i later
      refine List.pairwise_cons.mpr ⟨fun z hz => ?_, ih rest fun z hz => lower z (by simp [hz])⟩
      rcases mem_insertByEstimate.mp hz with rfl | hz
      · exact serves_of_not_sooner later (lower y (by simp))
      · exact first z hz

/-- Elements of ascending slots, inserted one by one. -/
theorem foldl_insert {xs l : List (Fin 8 × Option Nat)} (ordered : l.Pairwise Serves)
    (ascends : Ascends (·.1.val) xs) (lower : ∀ y ∈ l, ∀ x ∈ xs, y.1 < x.1) :
    (xs.foldl (fun l x => insertByEstimate x l) l).Pairwise Serves ∧
      ∀ y, y ∈ xs.foldl (fun l x => insertByEstimate x l) l ↔ y ∈ xs ∨ y ∈ l := by
  induction xs generalizing l with
  | nil => exact ⟨ordered, by simp⟩
  | cons x xs ih =>
    obtain ⟨above, rest⟩ := List.pairwise_cons.mp ascends
    have joined := insertByEstimate_ordered ordered fun y hy => lower y hy x (by simp)
    obtain ⟨pairwise, members⟩ := ih joined rest fun y hy z hz => by
      rcases mem_insertByEstimate.mp hy with rfl | hy
      · exact above z hz
      · exact lower y hy z (by simp [hz])
    refine ⟨pairwise, fun y => (members y).trans ?_⟩
    rw [mem_insertByEstimate, List.mem_cons]
    tauto

/-- The volumes in the serving order with their estimates, by slot. -/
def sendingSlots (s : State) : List (Fin 8 × Option Nat) :=
  slots8.filterMap fun i =>
    (s.vol i).bind fun v => if v.dup = .sending then some (i, s.estimate i v) else none

theorem servingOrder_eq (s : State) :
    s.servingOrder = (sendingSlots s).foldl (fun l x => insertByEstimate x l) [] := by
  unfold State.servingOrder sendingSlots
  refine congrArg (List.foldl _ []) (List.filterMap_congr fun i _ => ?_)
  cases s.vol i <;> rfl

theorem mem_sendingSlots {x : Fin 8 × Option Nat} : x ∈ sendingSlots s ↔
    ∃ v, s.vol x.1 = some v ∧ v.dup = .sending ∧ x.2 = s.estimate x.1 v := by
  unfold sendingSlots
  rw [List.mem_filterMap]
  constructor
  · rintro ⟨i, -, h⟩
    obtain ⟨v, found, h⟩ := Option.bind_eq_some_iff.mp h
    split at h
    · rename_i sending
      cases h
      exact ⟨v, found, sending, rfl⟩
    · cases h
  · rintro ⟨v, found, sending, estimate⟩
    refine ⟨x.1, mem_slots8 _, Option.bind_eq_some_iff.mpr ⟨v, found, ?_⟩⟩
    rw [if_pos sending, ← estimate]

theorem sendingSlots_ascends (s : State) : Ascends (·.1.val) (sendingSlots s) := by
  have slots : slots8.Pairwise (· < ·) := by decide
  refine slots.filterMap _ fun i j lt x hx y hy => ?_
  obtain ⟨v, -, hx⟩ := Option.bind_eq_some_iff.mp hx
  obtain ⟨w, -, hy⟩ := Option.bind_eq_some_iff.mp hy
  split at hx
  · split at hy
    · cases hx
      cases hy
      exact lt
    · cases hy
  · cases hx

theorem servingOrder_spec (s : State) :
    (∀ i e, (i, e) ∈ s.servingOrder ↔ ∃ v, s.vol i = some v ∧ v.dup = .sending ∧
      e = s.estimate i v) ∧ s.servingOrder.Pairwise Serves := by
  obtain ⟨pairwise, members⟩ := foldl_insert (l := []) List.Pairwise.nil (sendingSlots_ascends s)
    (by simp)
  rw [← servingOrder_eq] at pairwise members
  refine ⟨fun i e => (members (i, e)).trans ?_, pairwise⟩
  rw [mem_sendingSlots]
  simp

end Sys2Proof.Proofs

/-! PROOFS. The AT_RISK test of an announce-timer expiry (R159); settles O44. -/

namespace Sys2Proof.Proofs

open Sys2Proof.Machine Sys2Proof.Safety

variable {s t : State} {i : Fin 8} {v : Volume} {stop now : Nat} {x : Fin 8 × Option Nat}
  {l : List (Fin 8 × Option Nat)}

/-! ### Late volumes -/

/-- The estimate is known, and the running sum with it passes the window end time. -/
def passes (stop now : Nat) (x : Fin 8 × Option Nat) : Bool :=
  x.2.isSome && decide (stop < now + x.2.getD 0)

/-- The volumes of a list whose running sum passes the window end time, from the sum in front. -/
def lateIn (stop : Nat) : Nat → List (Fin 8 × Option Nat) → Fin 8 → Bool
  | _, [], _ => false
  | now, x :: xs, i => (x.1 == i && passes stop now x) || lateIn stop (now + x.2.getD 0) xs i

/-- The same by the places in the list. -/
theorem lateIn_eq {n : Nat} (h : l.length ≤ n) (stop now : Nat) (i : Fin 8) :
    lateIn stop now l i = (List.range n).any fun k =>
      (l[k]?.any fun x => x.1 == i && x.2.isSome) &&
        decide (stop < now + ((l.take (k + 1)).filterMap (·.2)).sum) := by
  induction l generalizing now n with
  | nil => simp [lateIn]
  | cons x xs ih =>
    obtain ⟨n, rfl⟩ : ∃ m, n = m + 1 := ⟨n - 1, by simp only [List.length_cons] at h; omega⟩
    have sum (k : Nat) : (((x :: xs).take (k + 1)).filterMap (·.2)).sum =
        x.2.getD 0 + ((xs.take k).filterMap (·.2)).sum := by
      obtain ⟨j, e⟩ := x
      cases e <;> simp
    rw [lateIn, ih (Nat.le_of_succ_le_succ h), List.range_succ_eq_map, List.any_cons, List.any_map]
    refine congrArg₂ (· || ·) ?_ ?_
    · rw [sum 0]
      simp [passes, Bool.and_assoc]
    · refine congrArg (List.any _) (funext fun k => ?_)
      dsimp only [Function.comp]
      rw [Nat.succ_eq_add_one, sum (k + 1), List.getElem?_cons_succ, Nat.add_assoc]

/-! ### The marks -/

/-- The AT_RISK entry of the event summary. -/
def riskEvent (s : State) : EventEntry := s.port.events[EventKind.index .atRisk]

/-- The AT_RISK mark of a slot. -/
def riskOf (s : State) (i : Fin 8) : Option Bool := (s.vol i).map (·.atRisk)

/-- The state in which a volume has been marked (R159). -/
def marked (s : State) (i : Fin 8) (v : Volume) : State :=
  (s.putVol i (some { v with atRisk := true })).raise .atRisk v.id

theorem riskEvent_marked (s : State) (i : Fin 8) (v : Volume) :
    (riskEvent (marked s i v)).flag = true :=
  congrArg EventEntry.flag (raise_raised (s := s.putVol i _) .atRisk v.id)

theorem riskOf_marked (s : State) (i : Fin 8) (v : Volume) (j : Fin 8) :
    riskOf (marked s i v) j = if j = i then some true else riskOf s j := by
  unfold riskOf
  split
  · rename_i here
    subst here
    exact congrArg _ (vol_putVol_self ..)
  · rename_i other
    exact congrArg _ (vol_putVol_other _ other _)

/-- What one volume of the test does. -/
theorem riskStep_eq (found : s.vol x.1 = some v) : riskStep stop (now, s) x =
    (now + x.2.getD 0,
      if passes stop now x = true ∧ v.atRisk = false then marked s x.1 v else s) := by
  obtain ⟨i, e⟩ := x
  unfold riskStep
  cases e with
  | none => rfl
  | some e =>
    dsimp only at found ⊢
    rw [found]
    dsimp only
    have late : passes stop now (i, some e) = decide (stop < now + e) := Bool.true_and _
    rw [late]
    by_cases marks : stop < now + e ∧ v.atRisk = false
    · rw [if_pos (by simpa using marks), if_pos (by simpa using marks)]
      rfl
    · rw [if_neg (by simpa using marks), if_neg (by simpa using marks)]
      rfl

/-- What the test leaves of the marks and of the event, volume by volume. -/
theorem riskFold (l : List (Fin 8 × Option Nat)) (now : Nat) (s : State)
    (stand : ∀ x ∈ l, (riskOf s x.1).isSome = true) :
    let r := (l.foldl (riskStep stop) (now, s)).2
    (∀ j, riskOf r j = (riskOf s j).map (· || lateIn stop now l j)) ∧
      ((riskEvent s).flag = true → (riskEvent r).flag = true) ∧
      ((∃ j, riskOf s j = some false ∧ lateIn stop now l j = true) → (riskEvent r).flag = true) ∧
      ((∀ j b, riskOf s j = some b → b = true ∨ lateIn stop now l j = false) →
        riskEvent r = riskEvent s) := by
  induction l generalizing now s with
  | nil =>
    intro r
    refine ⟨fun j => ?_, fun h => h, fun h => ?_, fun _ => rfl⟩
    · change riskOf s j = _
      cases riskOf s j <;> simp [lateIn]
    · obtain ⟨j, -, late⟩ := h
      cases late
  | cons x xs ih =>
    obtain ⟨head, rest⟩ := List.forall_mem_cons.mp stand
    obtain ⟨b, mark⟩ := Option.isSome_iff_exists.mp head
    obtain ⟨v, found, -⟩ := Option.map_eq_some_iff.mp mark
    have here : riskOf s x.1 = some v.atRisk := by
      unfold riskOf
      rw [found]
      rfl
    rw [List.foldl_cons, riskStep_eq found]
    by_cases marks : passes stop now x = true ∧ v.atRisk = false
    · obtain ⟨late, clear⟩ := marks
      rw [if_pos ⟨late, clear⟩]
      have step (j : Fin 8) : riskOf (marked s x.1 v) j =
          (riskOf s j).map (· || (x.1 == j && passes stop now x)) := by
        rw [riskOf_marked]
        by_cases same : j = x.1
        · rw [if_pos same, same, here, late]
          simp
        · have other : (x.1 == j) = false := beq_false_of_ne (Ne.symm same)
          rw [if_neg same, other]
          cases riskOf s j <;> simp
      obtain ⟨marks', persists, -, -⟩ := ih (now + x.2.getD 0) (marked s x.1 v) fun y hy => by
        rw [step, Option.isSome_map]
        exact rest y hy
      have raised := persists (riskEvent_marked ..)
      refine ⟨fun j => ?_, fun _ => raised, fun _ => raised, fun none => ?_⟩
      · rw [marks', step, Option.map_map]
        refine congrArg (fun f => Option.map f _) (funext fun b => ?_)
        exact Bool.or_assoc ..
      · have clash := none x.1 v.atRisk here
        rw [clear] at clash
        simp [lateIn, late] at clash
    · rw [if_neg marks]
      have kept (j : Fin 8) :
          (riskOf s j).map (· || (x.1 == j && passes stop now x)) = riskOf s j := by
        by_cases same : j = x.1
        · rw [same, here]
          cases late : passes stop now x <;> cases mark : v.atRisk <;> simp_all
        · have other : (x.1 == j) = false := beq_false_of_ne (Ne.symm same)
          rw [other]
          cases riskOf s j <;> simp
      obtain ⟨marks', persists, raises, quiet⟩ := ih (now + x.2.getD 0) s rest
      refine ⟨fun j => ?_, persists, fun ⟨j, clear, late⟩ => raises ⟨j, clear, ?_⟩,
        fun none => quiet fun j b at_j => (none j b at_j).imp id fun early => ?_⟩
      · rw [marks']
        conv_lhs => rw [← kept j, Option.map_map]
        refine congrArg (fun f => Option.map f _) (funext fun b => ?_)
        exact Bool.or_assoc ..
      · have := kept j
        rw [clear] at this
        simp only [lateIn, Bool.or_eq_true] at late
        refine late.resolve_left fun first => ?_
        simp [first] at this
      · simp only [lateIn, Bool.or_eq_false_iff] at early
        exact early.2

/-! ### The test in an OPEN window -/

theorem length_insertByEstimate (x : Fin 8 × Option Nat) (l : List (Fin 8 × Option Nat)) :
    (insertByEstimate x l).length = l.length + 1 := by
  induction l with
  | nil => rfl
  | cons y ys ih =>
    rw [insertByEstimate_cons]
    split
    · rfl
    · rw [List.length_cons, ih, List.length_cons]

theorem length_servingOrder (s : State) : s.servingOrder.length ≤ 8 := by
  have inserted (xs l : List (Fin 8 × Option Nat)) :
      (xs.foldl (fun l x => insertByEstimate x l) l).length = xs.length + l.length := by
    induction xs generalizing l with
    | nil => exact (Nat.zero_add _).symm
    | cons x xs ih =>
      rw [List.foldl_cons, ih, length_insertByEstimate, List.length_cons]
      omega
  rw [servingOrder_eq, inserted]
  exact List.length_filterMap_le _ slots8

/-- The late volumes of the AT_RISK test. -/
def lateAt (s : State) (i : Fin 8) : Bool :=
  lateIn s.windowEndTime s.time.uptime s.servingOrder i

theorem testAtRisk_marks (opened : s.dup.window = .opened) :
    (∀ j, riskOf s.testAtRisk j = (riskOf s j).map (· || lateAt s j)) ∧
      ((∃ j, riskOf s j = some false ∧ lateAt s j = true) →
        (riskEvent s.testAtRisk).flag = true) ∧
      ((∀ j b, riskOf s j = some b → b = true ∨ lateAt s j = false) →
        riskEvent s.testAtRisk = riskEvent s) := by
  have stand : ∀ x ∈ s.servingOrder, (riskOf s x.1).isSome = true := fun x mem => by
    obtain ⟨v, found, -⟩ := ((servingOrder_spec s).1 x.1 x.2).mp mem
    rw [riskOf, found]
    rfl
  obtain ⟨marks, -, raises, quiet⟩ :=
    riskFold (stop := s.windowEndTime) s.servingOrder s.time.uptime s stand
  unfold State.testAtRisk
  rw [if_pos opened]
  exact ⟨marks, raises, quiet⟩

/-- The window end time, counted from the next minute (R159). -/
theorem windowEndTime_eq {m a : Nat} (minute : s.time.minute = some m)
    (next : s.time.nextAdvance = some a) :
    s.windowEndTime = a + 60000 * ((s.cfg.windowEnd + 1439 - m) % 1440) := by
  have less : s.cfg.windowEnd + 1440 - 1 = s.cfg.windowEnd + 1439 := Nat.add_sub_assoc (by decide) _
  unfold State.windowEndTime
  rw [minute, next, Option.getD_some, Option.getD_some, less]

theorem expiry_marks {d m a : Nat} (released : s.rst = false)
    (timer : s.link.announceNext = some d) (due : d ≤ s.time.uptime)
    (opened : s.dup.window = .opened) (minute : s.time.minute = some m)
    (advance : s.time.nextAdvance = some a) :
    let u := s.setDup { s.dup with share := shareOf s.cfg s.ownBacklog s.peerBacklog }
    let stop := a + 60000 * ((s.cfg.windowEnd + 1439 - m) % 1440)
    let late := fun i : Fin 8 => (List.range 8).any fun n =>
      (u.servingOrder[n]?.any fun x => x.1 == i && x.2.isSome) &&
        decide (stop < s.time.uptime + ((u.servingOrder.take (n + 1)).filterMap (·.2)).sum)
    ∃ t, exec .announceTimerExpiry s = .next t ∧ t.dup.share = u.dup.share ∧
      (∀ i v, s.vol i = some v → ∃ w, t.vol i = some w ∧ w.atRisk = (v.atRisk || late i)) ∧
      ((∃ i v, s.vol i = some v ∧ v.atRisk = false ∧ late i = true) →
        t.port.events[EventKind.index .atRisk].flag = true) ∧
      ((∀ i v, s.vol i = some v → v.atRisk = true ∨ late i = false) →
        t.port.events[EventKind.index .atRisk] = s.port.events[EventKind.index .atRisk]) := by
  intro u stop late
  let next := d + secondsMs s.cfg.announceInterval
  let base := (s.setLink { s.link with announceNext := some next }).recomputeShare
  have isLate (i : Fin 8) : lateAt base i = late i := by
    have ends : base.windowEndTime = stop := windowEndTime_eq minute advance
    have order : base.servingOrder = u.servingOrder := rfl
    unfold lateAt
    rw [ends, order]
    exact lateIn_eq (length_servingOrder u) stop s.time.uptime i
  obtain ⟨marks, raises, quiet⟩ := testAtRisk_marks (s := base) opened
  have flushed : ChangesOnly [.port] base.testAtRisk base.testAtRisk.flushEvent :=
    flushEvent_changes _
  obtain ⟨events, share, risk⟩ := issuePass_keeps base.testAtRisk.flushEvent
  have slots := announceSlots_changes (reckoned next s)
  have ofRisk (i : Fin 8) : riskOf (reckoned next s).announceSlots i =
      (riskOf s i).map (· || late i) := by
    have early : riskOf (reckoned next s).announceSlots i = riskOf base.testAtRisk i := by
      rw [riskOf, vol_of_changes (by decide) slots]
      exact (risk i).trans (congrArg _ (vol_of_changes (by decide) flushed i))
    rw [early, marks, isLate]
    rfl
  have ofEvent : riskEvent (reckoned next s).announceSlots = riskEvent base.testAtRisk := by
    have port : (reckoned next s).announceSlots.port = (reckoned next s).port :=
      slots.2 .port (by decide)
    have same : (reckoned next s).port.events = base.testAtRisk.port.events :=
      events.trans (events_flushEvent _)
    rw [riskEvent, port, same, riskEvent]
  refine ⟨_, announceTimerExpiry_due released timer due, ?_, fun i v found => ?_,
    fun ⟨i, v, found, clear, passed⟩ => ?_, fun none => ?_⟩
  · have ofSlots : (reckoned next s).announceSlots.dup = (reckoned next s).dup :=
      slots.2 .dup (by decide)
    have ofFlush : base.testAtRisk.flushEvent.dup = base.testAtRisk.dup :=
      flushed.2 .dup (by decide)
    have ofTest : base.testAtRisk.dup = base.dup := (testAtRisk_changes base).2 .dup (by decide)
    rw [ofSlots]
    refine share.trans ?_
    rw [ofFlush, ofTest]
    rfl
  · have mark := ofRisk i
    rw [show riskOf s i = some v.atRisk by rw [riskOf, found]; rfl] at mark
    exact Option.map_eq_some_iff.mp mark
  · change (riskEvent (reckoned next s).announceSlots).flag = true
    rw [ofEvent]
    refine raises ⟨i, ?_, (isLate i).trans passed⟩
    exact (congrArg (Option.map _) found).trans (congrArg some clear)
  · change riskEvent (reckoned next s).announceSlots = riskEvent s
    rw [ofEvent]
    refine quiet fun i b mark => ?_
    obtain ⟨v, found, rfl⟩ := Option.map_eq_some_iff.mp mark
    exact (none i v found).imp id (isLate i).trans

/-- Settles O44: the slots as functions of the link, the layouts field by field, the serving order
as an insertion, the AT_RISK test volume by volume. -/
theorem ownFramesAndTheNightsFigures : Obligations.OwnFramesAndTheNightsFigures := by
  unfold Obligations.OwnFramesAndTheNightsFigures
  refine ⟨⟨fun s d => expiry_fills, fun s f => success_composes,
    fun s r q i v o => release_composes,
    fun s r g => loadDone_composes, fun s => attempt_drives, announce_layout, usage_layout⟩,
    fun s i v => ⟨backlogOf_eq s i v, estimate_eq s i v⟩, backlogs_eq, shareOf_eq,
    servingOrder_spec, fun s d m a released timer due opened minute _ advance =>
      expiry_marks released timer due opened minute advance⟩

end Sys2Proof.Proofs

/-! PROOFS. The frame of every command: settles O52. -/

namespace Sys2Proof.Proofs

open Sys2Proof.Machine Sys2Proof.Safety

/-- Settles O52: the frames of the commands, one by one in `exec_changes`. -/
theorem commandsChangeOnlyTheirBlocks : Obligations.CommandsChangeOnlyTheirBlocks :=
  fun c _ _ _ named run => exec_changes c named run

end Sys2Proof.Proofs

/-! PROOFS. Admission by the table of R30 (R29 to R31): the record on which it decides, its refusals,
and what a grant leaves. -/

namespace Sys2Proof.Proofs

open Sys2Proof.Machine Sys2Proof.Safety

variable {s t w : State} {o u : Owner} {id : OwnerId} {cls : Fin 8} {n vol : Nat}
  {origin : Origin} {e : Reservation}

/-! ### The record on which an admission decides -/

/-- The owner's record, or the one that would be created, re-evaluated (R29). -/
def judged (s : State) (id : OwnerId) (cls : Fin 8) : Owner :=
  s.reevaluate ((s.findOwner id).getD (s.freshOwner id cls))

/-- A fresh record is below every limit, so re-evaluation leaves it (R15). -/
theorem reevaluate_fresh : s.reevaluate (s.freshOwner id cls) = s.freshOwner id cls := by
  have view : (s.freshOwner id cls).view = 0 := rfl
  unfold State.reevaluate
  rw [view, if_neg (Nat.not_lt_zero _)]
  rfl

theorem judged_found (found : s.findOwner id = some o) : judged s id cls = s.reevaluate o := by
  unfold judged
  rw [found]
  rfl

theorem judged_new (new : s.findOwner id = none) : judged s id cls = s.freshOwner id cls := by
  unfold judged
  rw [new]
  exact reevaluate_fresh

theorem judged_id : (judged s id cls).id = id := by
  cases found : s.findOwner id with
  | none =>
    rw [judged_new found]
    rfl
  | some o => rw [judged_found found, reevaluate_id, findOwner_id s found]

theorem admitting_changes (s : State) (id : OwnerId) : ChangesOnly [.owners] s (admitting s id) :=
  touchOwner_changes ..

theorem admitting_figures (s : State) (id : OwnerId) : SameFigures s (admitting s id) :=
  .of_changes (by decide) (admitting_changes s id)

theorem admitting_othersKept (s : State) (id : OwnerId) : OthersKept id s (admitting s id) :=
  touchOwner_othersKept s fun _ => rfl

/-- Re-evaluation before the decision changes a record that stands and makes none (R29). -/
theorem findOwner_admitting (s : State) (id : OwnerId) :
    (admitting s id).findOwner id = (s.findOwner id).map s.reevaluate := by
  cases found : s.findOwner id with
  | none => rw [admitting, touchOwner_absent found, found]; rfl
  | some o => exact findOwner_touchOwner s found rfl

theorem judged_admitting (s : State) (id : OwnerId) (cls : Fin 8) :
    ((admitting s id).findOwner id).getD ((admitting s id).freshOwner id cls) =
      judged s id cls := by
  cases found : s.findOwner id with
  | none =>
    rw [admitting, touchOwner_absent found, found, judged_new found]
    rfl
  | some o =>
    rw [findOwner_admitting, found, judged_found found]
    rfl

/-- The quota state that a refusal reports (R33, R113). -/
theorem quotaFor_admitting (s : State) (id : OwnerId) (cls : Fin 8) :
    (admitting s id).quotaFor id cls = s.quotaState (judged s id cls) := by
  rw [State.quotaFor, judged_admitting, (admitting_figures s id).quotaState]

/-! ### The decision -/

theorem SameFigures.admissionStatus (h : SameFigures s t) (o : Owner) (n : Nat) :
    t.admissionStatus o n = s.admissionStatus o n := by
  unfold State.admissionStatus
  rw [h.effectiveLimits, h.passed]

/-- The table of R30 on a record and n blocks. -/
theorem admissionStatus_eq (s : State) (o : Owner) (n : Nat) :
    let limits := s.effectiveLimits o
    let after := min (o.view + n) 4294967295
    s.admissionStatus o n = if limits.hard < after then .overHard
      else if limits.soft < after ∧ s.passed o.grace = true then .lapsed
      else if 4294967295 < o.reserved + n then .full
      else if limits.soft < after then .soft else .ok := rfl

/-- A decision with the figures of the record it is made on (R33). -/
def decision (s : State) (u : Owner) (status : Status) (handle : Nat) (lease : Option Nat) :
    Decision :=
  { status, handle, lease, view := u.view, soft := (s.effectiveLimits u).soft,
    hard := (s.effectiveLimits u).hard }

theorem admitBlocks_refused {status : Status}
    (table : s.admissionStatus (judged s id cls) n = status) (refused : ¬(status = .ok ∨ status = .soft)) :
    s.admitBlocks id cls n vol origin =
      (decision s (judged s id cls) status 0 none, admitting s id) := by
  have same := admitting_figures s id
  unfold State.admitBlocks
  dsimp only
  rw [judged_admitting, same.admissionStatus, same.effectiveLimits, table, if_neg refused]
  rfl

/-- An admission that the table allows is refused with FULL where the grant finds no room (R30). -/
theorem admitBlocks_ungranted {status : Status}
    (table : s.admissionStatus (judged s id cls) n = status) (allowed : status = .ok ∨ status = .soft)
    (none : (admitting s id).grant id cls n vol origin = none) :
    s.admitBlocks id cls n vol origin =
      (decision s (judged s id cls) .full 0 .none, admitting s id) := by
  have same := admitting_figures s id
  unfold State.admitBlocks
  dsimp only
  rw [judged_admitting, same.admissionStatus, same.effectiveLimits, table, if_pos allowed, none]
  rfl

theorem admitBlocks_granted {status : Status}
    (table : s.admissionStatus (judged s id cls) n = status) (allowed : status = .ok ∨ status = .soft)
    (granted : (admitting s id).grant id cls n vol origin = some (e, w)) :
    s.admitBlocks id cls n vol origin =
      (decision s (judged s id cls) status e.handle e.lease, w) := by
  have same := admitting_figures s id
  unfold State.admitBlocks
  dsimp only
  rw [judged_admitting, same.admissionStatus, same.effectiveLimits, table, if_pos allowed, granted]
  rfl

/-! ### The grant -/

theorem grantedEntry_of_owners (h : ChangesOnly [.owners] s t) :
    grantedEntry t id cls n vol origin = grantedEntry s id cls n vol origin := by
  have adm : t.adm = s.adm := h.2 .adm (by decide)
  have now : t.now = s.now := congrArg Timebase.uptime (h.2 .time (by decide))
  simp only [grantedEntry, adm, now, leaseFromNow_of_owners h]

/-- With room for it, a record of the owner stands in the table (R5). -/
theorem ensureOwner_stands (room : (s.findOwner id).isSome = true ∨ s.owners.length < 4096) :
    ∃ l, s.ensureOwner id cls = some (s.setOwners l) ∧
      (s.setOwners l).findOwner id = some ((s.findOwner id).getD (s.freshOwner id cls)) ∧
      OthersKept id s (s.setOwners l) := by
  cases found : s.findOwner id with
  | some o =>
    refine ⟨s.owners, ?_, found, fun _ _ => rfl⟩
    unfold State.ensureOwner
    rw [found]
    rfl
  | none =>
    have small : s.owners.length < 4096 := room.resolve_left (by simp [found])
    exact ⟨putOwner (s.freshOwner id cls) s.owners, (ensureOwner_new found).trans (if_pos small),
      find_putOwner_self (s.freshOwner id cls) _,
      fun _ other => find_putOwner_other (s.freshOwner id cls) _ other⟩

/-- Re-evaluation before the decision leaves the room of the Owner Table. -/
theorem admitting_room (room : (s.findOwner id).isSome = true ∨ s.owners.length < 4096) :
    ((admitting s id).findOwner id).isSome = true ∨ (admitting s id).owners.length < 4096 := by
  cases found : s.findOwner id with
  | some o =>
    left
    rw [findOwner_admitting, found]
    rfl
  | none =>
    right
    rw [admitting, touchOwner_absent found]
    exact room.resolve_left (by simp [found])

/-- The record on which an admission decided stands before its counts rise (R5, R31). -/
theorem ensureOwner_judged (room : (s.findOwner id).isSome = true ∨ s.owners.length < 4096) :
    ∃ l, (admitting s id).ensureOwner id cls = some ((admitting s id).setOwners l) ∧
      ((admitting s id).setOwners l).findOwner id = some (judged s id cls) ∧
      OthersKept id s ((admitting s id).setOwners l) := by
  obtain ⟨l, made, stands, others⟩ := ensureOwner_stands (cls := cls) (admitting_room room)
  rw [judged_admitting] at stands
  exact ⟨l, made, stands, fun x other =>
    (others x other).trans (admitting_othersKept s id x other)⟩

/-- What a grant leaves: the entry in the table, its blocks in the owner's record (R31). -/
theorem grant_leaves (slot : lowestFreeSlot 0 s.adm.entries < 512)
    (room : (s.findOwner id).isSome = true ∨ s.owners.length < 4096) :
    let e := grantedEntry s id cls n vol origin
    let u := judged s id cls
    ∃ w, (admitting s id).grant id cls n vol origin = some (e, w) ∧
      w.adm = { entries := putEntry e s.adm.entries, handleCounter := e.handle } ∧
      w.findOwner id = some (s.reevaluate
        { u with reserved := u.reserved + n, lastCharge := s.time.uptime }) ∧
      OthersKept id s w ∧ ChangesOnly [.owners, .adm] s w := by
  intro e u
  obtain ⟨l, made, stands, others⟩ := ensureOwner_judged (cls := cls) room
  have before := admitting_changes s id
  have adm : (admitting s id).adm = s.adm := before.2 .adm (by decide)
  have now : (admitting s id).now = s.time.uptime :=
    congrArg Timebase.uptime (before.2 .time (by decide))
  have entry : grantedEntry (admitting s id) id cls n vol origin = e :=
    grantedEntry_of_owners before
  let base := ((admitting s id).setOwners l).setAdm
    { entries := putEntry e s.adm.entries, handleCounter := e.handle }
  let f : Owner → Owner := fun o => { o with reserved := o.reserved + n, lastCharge := s.time.uptime }
  have only : ChangesOnly [.owners, .adm] s base :=
    andThen (by decide) (andThen (by decide) (within (by decide) before) (setOwners_changes ..))
      (setAdm_changes ..)
  have same : SameFigures s base := .of_changes (by decide) only
  have granted := grant_made (n := n) (vol := vol) (origin := origin) made (adm ▸ slot)
  rw [entry, now, adm] at granted
  refine ⟨base.touchOwner id f, granted, (touchOwner_changes ..).2 .adm (by decide), ?_,
    fun x other => ?_, andThen (by decide) only (touchOwner_changes ..)⟩
  · rw [findOwner_touchOwner base (f := f) stands rfl, same.reevaluate]
  · exact (touchOwner_othersKept base (f := f) (fun _ => rfl) x other).trans (others x other)

/-- Without a free slot there is no grant (R26, R30). -/
theorem grant_noSlot (full : 512 ≤ lowestFreeSlot 0 s.adm.entries) :
    (admitting s id).grant id cls n vol origin = none := by
  have adm : (admitting s id).adm = s.adm := (admitting_changes s id).2 .adm (by decide)
  unfold State.grant
  dsimp only
  rw [adm, if_neg (Nat.not_lt.mpr full)]

/-- The next handle behind any counter is free and in range (R27). -/
theorem nextHandle_fresh {used : List Nat} (few : used.length ≤ 512) (last : Nat) :
    1 ≤ nextHandle used 513 last ∧ nextHandle used 513 last ≤ 65535 ∧
      nextHandle used 513 last ∉ used := by
  have capped : nextHandle used 513 last = nextHandle used 513 (min last 65535) := by
    rcases Nat.le_total last 65535 with low | high
    · rw [Nat.min_eq_left low]
    · rw [Nat.min_eq_right high]
      unfold nextHandle
      rw [if_pos high, if_pos (Nat.le_refl 65535)]
  rw [capped]
  obtain ⟨free, low, high⟩ := nextHandle_spec (Nat.min_le_right last 65535)
    (handleCandidate_free _ few)
  exact ⟨low, high, free⟩

end Sys2Proof.Proofs

/-! PROOFS. RESERVE by the table of R30 (R28 to R31, R33): settles O10 and O11. -/

namespace Sys2Proof.Proofs

open Sys2Proof.Machine Sys2Proof.Safety

variable {s t w : State} {o u : Owner} {id : OwnerId} {cls : Fin 8} {n vol tag : Nat}
  {origin : Origin} {r : Bytes} {d : Decision}

/-- The table of R30 where none of its refusals holds. -/
theorem admissionStatus_allowed (hard : min (u.view + n) 4294967295 ≤ (s.effectiveLimits u).hard)
    (grace : ¬((s.effectiveLimits u).soft < min (u.view + n) 4294967295 ∧ s.passed u.grace = true))
    (counts : u.reserved + n ≤ 4294967295) : s.admissionStatus u n =
      if (s.effectiveLimits u).soft < min (u.view + n) 4294967295 then .soft else .ok := by
  rw [admissionStatus_eq, if_neg (Nat.not_lt.mpr hard), if_neg grace,
    if_neg (Nat.not_lt.mpr counts)]

theorem softOrOk_allowed (p : Prop) [Decidable p] :
    (if p then Status.soft else .ok) = .ok ∨ (if p then Status.soft else .ok) = .soft := by
  split
  · exact .inr rfl
  · exact .inl rfl

/-- A refusal of an admission leaves the reservation table and re-evaluates the owner's record
(R29, R30). -/
theorem admitting_leaves (s : State) (id : OwnerId) : (admitting s id).adm = s.adm ∧
    (admitting s id).findOwner id = (s.findOwner id).map s.reevaluate ∧
    OthersKept id s (admitting s id) ∧ ChangesOnly [.owners] s (admitting s id) :=
  ⟨(admitting_changes s id).2 .adm (by decide), findOwner_admitting s id,
    admitting_othersKept s id, admitting_changes s id⟩

theorem decided_changes (decided : s.admitBlocks id cls n vol origin = (d, w)) :
    ChangesOnly [.owners, .adm] s w := by
  have := admit_changes s id cls n vol origin
  rwa [decided] at this

/-- The completion of a RESERVE is all that follows its admission (R33). -/
theorem reserve_decided {q : ReserveReq} (takes : Takes s 1 r) (parsed : parseReserve r = some q)
    (valid : invalidOwner q.owner = false) (volume : q.volume ≠ 0) (low : 1 ≤ q.n)
    (high : q.n ≤ 16777215) (found : (s.findVol q.volume).isSome = true)
    (tracked : s.classOf q.owner = some cls)
    (decided : s.dropHead.admitBlocks q.owner cls q.n q.volume .write = (d, w)) :
    ∃ t, exec .reserve s = .next t ∧ ChangesOnly [.port] w t ∧
      Answered s t (reply 1 (recordTag r) d.status
        (.reserve d.handle d.lease d.view d.soft d.hard (w.quotaFor q.owner cls))) := by
  have run : exec .reserve s = .next (reserveRequest (recordTag r) q s.dropHead) :=
    whenReleased_taken takes parsed
  rw [reserveRequest_tracked (s := s.dropHead) valid volume low high found tracked decided] at run
  exact ⟨_, run, answer_changes .., answered_alone (.of_changes (decided_changes decided)
    (by decide))⟩

/-- Settles O10: the table grants, the grant makes the entry, the completion carries both. -/
theorem reserveGrantsByTheAdmissionTable : Obligations.ReserveGrantsByTheAdmissionTable := by
  intro s r q cls takes parsed valid volume low high found tracked u limits after slot handle lease
    o hard grace counts free room
  have table : s.dropHead.admissionStatus u q.n = if limits.soft < after then .soft else .ok :=
    admissionStatus_allowed (s := s) hard grace counts
  obtain ⟨w, granted, adm, stands, others, only⟩ := grant_leaves (s := s.dropHead) (cls := cls)
    (n := q.n) (vol := q.volume) (origin := .write) free room
  obtain ⟨t, run, behind, answered⟩ := reserve_decided takes parsed valid volume low high found
    tracked (admitBlocks_granted table (softOrOk_allowed _) granted)
  have same : SameFigures s w := .trans (.of_changes (by decide) (dropHead_changes s))
    (.of_changes (by decide) only)
  have quota : w.quotaFor q.owner cls = s.quotaState o :=
    (quotaFor_found stands).trans (same.quotaState o)
  have owners := findOwner_of_changes (by decide) behind
  refine ⟨t, run, (behind.2 .adm (by decide)).trans adm, fun few => ?_, (owners _).trans stands,
    fun x other => (owners x).trans (others x other), ?_, ?_⟩
  · obtain ⟨one, top, fresh⟩ := nextHandle_fresh (used := s.adm.entries.map (·.handle))
      (by simpa using few) s.adm.handleCounter
    exact ⟨one, top, fun x mem same => fresh (List.mem_map.mpr ⟨x, mem, same⟩)⟩
  · rw [← quota]
    exact answered
  · exact andThen (by decide) (andThen (by decide) (within (by decide) (dropHead_changes s)) only)
      behind

/-! ### Refusals -/

theorem reserveRequest_badField {q : ReserveReq}
    (bad : invalidOwner q.owner = true ∨ q.volume = 0 ∨ q.n = 0 ∨ 16777215 < q.n) :
    reserveRequest tag q s = s.answer 1 tag .badField (.reserve) := if_pos bad

theorem reserveRequest_noSuch {q : ReserveReq} (valid : invalidOwner q.owner = false)
    (volume : q.volume ≠ 0) (low : 1 ≤ q.n) (high : q.n ≤ 16777215)
    (none : s.findVol q.volume = none) :
    reserveRequest tag q s = s.answer 1 tag .noSuch (.reserve) := by
  unfold reserveRequest
  rw [if_neg (by simp [valid, volume, maxRequestBlocks]; omega), none]
  rfl

theorem reserveRequest_untracked {q : ReserveReq} (valid : invalidOwner q.owner = false)
    (volume : q.volume ≠ 0) (low : 1 ≤ q.n) (high : q.n ≤ 16777215)
    (found : (s.findVol q.volume).isSome = true) (untracked : s.classOf q.owner = none) :
    reserveRequest tag q s = s.answer 1 tag .untracked (.reserve) := by
  unfold reserveRequest
  rw [if_neg (by simp [valid, volume, maxRequestBlocks]; omega),
    Option.isNone_eq_false_iff.mpr found, if_neg (by decide), untracked]

/-- The refusals of an admission are the lines of R30 down to the full reservation table: the
decision carries the status and the figures, and the owner's record is re-evaluated. -/
theorem admitBlocks_refuses {status : Status}
    (table : (if (s.effectiveLimits (judged s id cls)).hard <
          min ((judged s id cls).view + n) 4294967295 then some Status.overHard
        else if (s.effectiveLimits (judged s id cls)).soft <
            min ((judged s id cls).view + n) 4294967295 ∧
          s.passed (judged s id cls).grace = true then some .lapsed
        else if 4294967295 < (judged s id cls).reserved + n then some .full
        else if 512 ≤ lowestFreeSlot 0 s.adm.entries then some .full else none) = some status) :
    s.admitBlocks id cls n vol origin =
      (decision s (judged s id cls) status 0 none, admitting s id) := by
  have lines := admissionStatus_eq s (judged s id cls) n
  dsimp only at lines
  split at table
  · rename_i above
    cases table
    exact admitBlocks_refused (lines.trans (if_pos above)) (by decide)
  rename_i hard
  rw [if_neg hard] at lines
  split at table
  · rename_i lapsed
    cases table
    exact admitBlocks_refused (lines.trans (if_pos lapsed)) (by decide)
  rename_i grace
  rw [if_neg grace] at lines
  split at table
  · rename_i many
    cases table
    exact admitBlocks_refused (lines.trans (if_pos many)) (by decide)
  rename_i counts
  rw [if_neg counts] at lines
  split at table
  · rename_i full
    cases table
    exact admitBlocks_ungranted lines (softOrOk_allowed _) (grant_noSlot full)
  · cases table

/-- Settles O11: the field checks in their order, then the lines of R30. -/
theorem refusedReserveMakesNoEntry : Obligations.RefusedReserveMakesNoEntry := by
  intro s r q takes parsed
  have run : exec .reserve s = .next (reserveRequest (recordTag r) q s.dropHead) :=
    whenReleased_taken takes parsed
  refine ⟨fun bad => ?_, fun valid volume low high => ⟨fun none => ?_, fun found =>
    ⟨fun untracked => ?_, ?_⟩⟩⟩
  · rw [reserveRequest_badField bad] at run
    exact ⟨_, run, refused_changes, answered_alone (.refl _)⟩
  · rw [reserveRequest_noSuch (s := s.dropHead) valid volume low high none] at run
    exact ⟨_, run, refused_changes, answered_alone (.refl _)⟩
  · rw [reserveRequest_untracked (s := s.dropHead) valid volume low high found untracked] at run
    exact ⟨_, run, refused_changes, answered_alone (.refl _)⟩
  · intro cls tracked u limits after status table
    obtain ⟨t, run, behind, answered⟩ := reserve_decided takes parsed valid volume low high found
      tracked (admitBlocks_refuses (s := s.dropHead) table)
    obtain ⟨adm, record, others, only⟩ := admitting_leaves s.dropHead q.owner
    have owners := findOwner_of_changes (by decide) behind
    rw [quotaFor_admitting] at answered
    exact ⟨t, run, (behind.2 .adm (by decide)).trans adm, (owners _).trans record,
      fun x other => (owners x).trans (others x other), andThen (by decide) (andThen (by decide)
        (within (by decide) (dropHead_changes s)) only) behind, answered⟩

end Sys2Proof.Proofs

/-! PROOFS. RENEW and CANCEL (R35, R36): settles O12. -/

namespace Sys2Proof.Proofs

open Sys2Proof.Machine Sys2Proof.Safety

variable {s : State} {o : Owner} {e : Reservation} {h tag : Nat}

theorem renewRequest_noEntry (nonzero : h ≠ 0) (none : s.entryByHandle h = none) :
    renewRequest tag h s = s.answer 2 tag .noSuch (.renew) := by
  unfold renewRequest
  rw [if_neg nonzero, none]

/-- A RESTORE entry has no lease to renew (R35). -/
theorem renewRequest_restore (nonzero : h ≠ 0) (found : s.entryByHandle h = some e)
    (origin : e.origin ≠ .write) : renewRequest tag h s = s.answer 2 tag .noSuch (.renew) := by
  unfold renewRequest
  rw [if_neg nonzero, found]
  exact if_neg origin

/-- The entries with a new lease in one slot (R35). -/
def renewed (e : Reservation) (lease : Nat) (a : Admission) : Admission :=
  { a with entries := a.entries.map fun x =>
      if x.slot = e.slot then { x with lease := some lease } else x }

theorem renewRequest_write (nonzero : h ≠ 0) (found : s.entryByHandle h = some e)
    (origin : e.origin = .write) (record : s.findOwner e.owner = some o) :
    renewRequest tag h s = (s.setAdm (renewed e (s.leaseFromNow o.cls) s.adm)).answer 2 tag .ok
      (.renew (some (s.leaseFromNow o.cls))) := by
  unfold renewRequest
  rw [if_neg nonzero, found]
  dsimp only
  rw [if_pos origin, record]
  rfl

theorem cancelRequest_noEntry (nonzero : h ≠ 0) (none : s.entryByHandle h = none) :
    cancelRequest tag h s = s.answer 4 tag .noSuch (.cancel) := by
  unfold cancelRequest
  rw [if_neg nonzero, none]

/-- A RESTORE entry leaves with its job alone (R36). -/
theorem cancelRequest_restore (nonzero : h ≠ 0) (found : s.entryByHandle h = some e)
    (origin : e.origin ≠ .write) : cancelRequest tag h s = s.answer 4 tag .badField (.cancel) := by
  unfold cancelRequest
  rw [if_neg nonzero, found]
  exact if_neg origin

theorem cancelRequest_write (nonzero : h ≠ 0) (found : s.entryByHandle h = some e)
    (origin : e.origin = .write) : cancelRequest tag h s =
      (s.removeEntry e fun o => { o with lastCharge := s.now }).answer 4 tag .ok
        (.cancel e.blocks) := by
  unfold cancelRequest
  rw [if_neg nonzero, found]
  exact if_pos origin

/-- Settles O12: no entry, a RESTORE entry, a WRITE entry. -/
theorem renewAndCancelOfAnEntry : Obligations.RenewAndCancelOfAnEntry := by
  intro s r h parsed nonzero
  have renew (takes : Takes s 2 r) :
      exec .renew s = .next (renewRequest (recordTag r) h s.dropHead) :=
    whenReleased_taken takes parsed
  have cancel (takes : Takes s 4 r) :
      exec .cancel s = .next (cancelRequest (recordTag r) h s.dropHead) :=
    whenReleased_taken takes parsed
  refine ⟨fun none => ⟨fun takes => ?_, fun takes => ?_⟩, fun e found =>
    ⟨fun c origin => ⟨fun takes => ?_, fun takes => ?_⟩, fun o origin record =>
      ⟨fun takes => ?_, fun takes => ?_⟩⟩⟩
  · exact ⟨_, (renew takes).trans (congrArg _ (renewRequest_noEntry (s := s.dropHead) nonzero none)),
      refused_changes, answered_alone (.refl _)⟩
  · exact ⟨_, (cancel takes).trans (congrArg _ (cancelRequest_noEntry (s := s.dropHead) nonzero
      none)), refused_changes, answered_alone (.refl _)⟩
  · exact ⟨_, (renew takes).trans (congrArg _ (renewRequest_restore (s := s.dropHead) nonzero found
      (by simp [origin]))), refused_changes, answered_alone (.refl _)⟩
  · exact ⟨_, (cancel takes).trans (congrArg _ (cancelRequest_restore (s := s.dropHead) nonzero
      found (by simp [origin]))), refused_changes, answered_alone (.refl _)⟩
  · intro lease
    have run := (renew takes).trans (congrArg _ (renewRequest_write (s := s.dropHead) nonzero found
      origin record))
    exact ⟨_, run, (answer_changes ..).2 .adm (by decide), answered_alone ⟨rfl, rfl⟩,
      andThen (by decide) (andThen (by decide) (within (by decide) (dropHead_changes s))
        (setAdm_changes ..)) (answer_changes ..)⟩
  · have run := (cancel takes).trans (congrArg _ (cancelRequest_write (s := s.dropHead) nonzero
      found origin))
    obtain ⟨adm, touched, others, removed⟩ := removeEntry_leaves (s := s.dropHead) (e := e)
      (f := fun o => { o with lastCharge := s.now }) (fun _ => rfl) record
    have told := answer_changes (s.dropHead.removeEntry e fun o => { o with lastCharge := s.now }) 4
      (recordTag r) .ok (.cancel e.blocks)
    have owners := findOwner_of_changes (by decide) told
    exact ⟨_, run, (told.2 .adm (by decide)).trans adm, (owners _).trans touched,
      fun x other => (owners x).trans (others x other), answered_alone (.of_changes removed
        (by decide)), andThen (by decide) (andThen (by decide) (within (by decide)
        (dropHead_changes s)) removed) told⟩

end Sys2Proof.Proofs

/-! PROOFS. RESTORE_GO of a tracked owner (R43, R113): settles O25. -/

namespace Sys2Proof.Proofs

open Sys2Proof.Machine Sys2Proof.Safety

variable {s w : State} {cls : Fin 8} {tag : Nat} {c : Fin 4} {x : Context} {d : Decision}

/-- The blocks that a job asks for as a whole (R113). -/
def wholeJob (x : Context) : Nat := (x.items.map (·.length)).sum

/-- The completion of an admitted or refused GO (R113). -/
def goBody (w : State) (x : Context) (cls : Fin 8) (d : Decision) : Body :=
  .restoreGo (n := wholeJob x) (view := d.view) (soft := d.soft) (hard := d.hard)
    (quota := w.quotaFor x.owner cls)

theorem goTracked_starts (decided : s.admitBlocks x.owner cls (wholeJob x)
      (s.volumeId x.targetSlot) (.restore c) = (d, w))
    (allowed : d.status = .ok ∨ d.status = .soft) :
    goTracked tag c x cls s = ((w.startJob c x (some d.handle)).answer 13 tag d.status
      (goBody (w.startJob c x (some d.handle)) x cls d)).placeCopies := by
  unfold wholeJob at decided
  unfold goTracked
  dsimp only
  rw [decided]
  exact if_pos allowed

theorem goTracked_frees (decided : s.admitBlocks x.owner cls (wholeJob x)
      (s.volumeId x.targetSlot) (.restore c) = (d, w))
    (refused : ¬(d.status = .ok ∨ d.status = .soft)) :
    goTracked tag c x cls s = ((w.freeContext c x).answer 13 tag d.status
      (goBody (w.freeContext c x) x cls d)).evaluateIfOver x.sourceSlot := by
  unfold wholeJob at decided
  unfold goTracked
  dsimp only
  rw [decided]
  exact if_neg refused

/-- A start counts one more running restore, whatever it does to the suspension (R160). -/
theorem restoreStarts_running (s : State) : s.restoreStarts.dup.running = s.dup.running + 1 := by
  unfold State.restoreStarts
  dsimp only
  split
  · split
    · split <;> rfl
    · rfl
  · rfl

theorem startJob_running (s : State) (c : Fin 4) (x : Context) (handle : Option Nat) :
    (s.startJob c x handle).dup.running = s.dup.running + 1 := restoreStarts_running _

/-- The figures of a completion stand while the owners, the time and the link do. -/
theorem goBody_congr {l : List Block} {u : State} (hp : .owners ∉ l ∧ .time ∉ l ∧ .link ∉ l)
    (h : ChangesOnly l w u) : goBody u x cls d = goBody w x cls d := by
  have same : SameFigures w u := .of_changes hp.2 h
  have fresh : u.freshOwner x.owner cls = w.freshOwner x.owner cls := by
    simp only [State.freshOwner, State.now, State.cfg, same.1, same.2.1]
  unfold goBody State.quotaFor
  rw [findOwner_of_changes hp.1 h, fresh, same.quotaState]

/-- A GO that is admitted: the context runs with the handle of its entry (R113). -/
theorem goTracked_admitted {r : Bytes}
    (decided : s.dropHead.admitBlocks x.owner cls (wholeJob x) (s.volumeId x.targetSlot)
      (.restore c) = (d, w)) (allowed : d.status = .ok ∨ d.status = .soft) :
    let t := goTracked (recordTag r) c x cls s.dropHead
    ChangesOnly [.rsc, .dup, .port] w t ∧ t.dup.running = s.dup.running + 1 ∧
      (∃ y, t.context c = some y ∧ y.state = .running ∧ y.handle = some d.handle) ∧
      Answered s t (reply 13 (recordTag r) d.status (goBody w x cls d)) := by
  have only := decided_changes decided
  let started := w.startJob c x (some d.handle)
  have starting : ChangesOnly [.rsc, .dup] w started := startJob_changes ..
  let told := started.answer 13 (recordTag r) d.status (goBody started x cls d)
  have telling : ChangesOnly [.port] started told := answer_changes ..
  have placing : ChangesOnly [.rsc, .port] told told.placeCopies := placeCopies_changes told
  have running : told.context c = some (x.start (some d.handle)) := by
    rw [context_of_changes (by decide) telling]
    exact startJob_context ..
  have count : told.placeCopies.dup = started.dup :=
    (placing.2 .dup (by decide)).trans (telling.2 .dup (by decide))
  have before : ChangesOnly [.owners, .adm, .rsc, .dup] s.dropHead started :=
    (within (by decide) only).trans (within (by decide) starting)
  rw [goTracked_starts (s := s.dropHead) decided allowed]
  refine ⟨?_, ?_, placeCopies_context running, ?_⟩
  · exact andThen (by decide) (andThen (by decide) (within (by decide) starting) telling) placing
  · rw [count, startJob_running, show w.dup = s.dup from only.2 .dup (by decide)]
  · rw [← goBody_congr (by decide) starting]
    exact answered_of_quiet (.of_changes before (by decide)) (placeCopies_grows told)

/-- A GO that is refused: the context is free again (R113). -/
theorem goTracked_refused {r : Bytes}
    (decided : s.dropHead.admitBlocks x.owner cls (wholeJob x) (s.volumeId x.targetSlot)
      (.restore c) = (d, w)) (refused : ¬(d.status = .ok ∨ d.status = .soft)) :
    let t := goTracked (recordTag r) c x cls s.dropHead
    ChangesOnly [.rsc, .cat, .port] w t ∧ t.context c = none ∧
      Answered s t (reply 13 (recordTag r) d.status (goBody w x cls d)) := by
  let freed := w.freeContext c x
  have freeing : ChangesOnly [.rsc, .cat] w freed := freeContext_changes ..
  have behind : ChangesOnly [.cat, .port] freed ((freed.answer 13 (recordTag r) d.status
      (goBody freed x cls d)).evaluateIfOver x.sourceSlot) :=
    (within (by decide) (answer_changes ..)).trans (evaluateIfOver_changes ..)
  have before : ChangesOnly [.owners, .adm, .rsc, .cat] s.dropHead freed :=
    (within (by decide) (decided_changes decided)).trans (within (by decide) freeing)
  rw [goTracked_frees (s := s.dropHead) decided refused]
  refine ⟨(within (by decide) freeing).trans (within (by decide) behind), ?_, ?_⟩
  · rw [context_of_changes (by decide) behind]
    exact freeContext_context ..
  · rw [← goBody_congr (by decide) freeing]
    exact answered_of_quiet (.of_changes before (by decide)) (evaluateIfOver_grows ..)

/-- Settles O25: the table refuses with OVER_HARD, or grants the whole job. -/
theorem restoreGoAdmitsTheWholeJob : Obligations.RestoreGoAdmitsTheWholeJob := by
  intro s r q c x cls takes parsed context job name state complete kept tracked n u limits after slot
    handle o
  have run : exec .restoreGo s = .next (goTracked (recordTag r) c x cls s.dropHead) :=
    (whenReleased_taken takes parsed).trans (congrArg _ (goRequest_tracked (s := s.dropHead) context
      job name state complete kept tracked))
  refine ⟨fun above => ?_, fun hard grace counts free room => ?_⟩
  · have table : s.dropHead.admissionStatus u n = .overHard :=
      (admissionStatus_eq s u n).trans (if_pos above)
    obtain ⟨behind, none, answered⟩ := goTracked_refused (r := r)
      (admitBlocks_refused (s := s.dropHead) table (by decide)) (by simp [decision])
    obtain ⟨adm, -, -, only⟩ := admitting_leaves s.dropHead x.owner
    rw [goBody, quotaFor_admitting] at answered
    exact ⟨_, run, none, (behind.2 .adm (by decide)).trans adm,
      (behind.2 .dup (by decide)).trans (only.2 .dup (by decide)), answered⟩
  · have table : s.dropHead.admissionStatus u n = if limits.soft < after then .soft else .ok :=
      admissionStatus_allowed (s := s) hard grace counts
    obtain ⟨w, granted, adm, stands, others, only⟩ := grant_leaves (s := s.dropHead) (cls := cls)
      (n := n) (vol := s.volumeId x.targetSlot) (origin := .restore c) free room
    obtain ⟨behind, count, ⟨y, running, ran, held⟩, answered⟩ := goTracked_admitted (r := r)
      (admitBlocks_granted table (softOrOk_allowed _) granted) (softOrOk_allowed _)
    have same : SameFigures s w := .trans (.of_changes (by decide) (dropHead_changes s))
      (.of_changes (by decide) only)
    have quota : w.quotaFor x.owner cls = s.quotaState o :=
      (quotaFor_found stands).trans (same.quotaState o)
    have owners := findOwner_of_changes (by decide) behind
    rw [goBody, quota] at answered
    exact ⟨_, y, run, (behind.2 .adm (by decide)).trans adm, (owners _).trans stands,
      fun k other => (owners k).trans (others k other), running, ran, held, count, answered⟩

end Sys2Proof.Proofs

/-! PROOFS. What stands behind the changes that requests have in common: a change of an owner's
record and of its local used (R4, R16, R54), an issue pass (R149), an extent that joins a volume's
current list (R126 to R130). -/

namespace Sys2Proof.Proofs

open Sys2Proof.Machine Sys2Proof.Safety

variable {s t u w : State} {o : Owner} {id : OwnerId} {i : Fin 8} {v : Volume} {x : Extent} {n : Nat}

/-! ### A change of local used -/

/-- A record touched, and the USAGE slot served behind it. -/
theorem touched_noted {f : Owner → Owner} (hf : ∀ o, (f o).id = o.id)
    (found : s.findOwner id = some o) (before : Nat) :
    let t := (s.touchOwner id f).usedChanged id before
    t.findOwner id = some (s.reevaluate (f o)) ∧ OthersKept id s t ∧ SameFigures s t ∧
      ChangesOnly [.owners, .link] s t := by
  intro t
  have touching : ChangesOnly [.owners] s (s.touchOwner id f) := touchOwner_changes ..
  have noting : ChangesOnly [.link] (s.touchOwner id f) t := usedChanged_changes ..
  have owners := findOwner_of_changes (by decide) noting
  exact ⟨(owners _).trans (findOwner_touchOwner s found (hf o)),
    fun k other => (owners k).trans (touchOwner_othersKept s hf k other),
    .trans (.of_changes (by decide) touching) (usedChanged_sameFigures ..),
    (within (by decide) touching).trans (within (by decide) noting)⟩

theorem usedOf_of_found (found : s.findOwner id = some o) : s.usedOf id = o.used := by
  unfold State.usedOf
  rw [found]
  rfl

/-! ### What an issue pass keeps -/

/-- What every ticket keeps, an issue pass keeps (R149). -/
theorem issuePass_invariant {P : State → Prop}
    (ticket : ∀ u i v, u.vol i = some v → P u → P (u.issueTicket i v)) (h : P s) :
    P s.issuePass := by
  unfold State.issuePass
  generalize 16 = rounds
  induction rounds generalizing s with
  | zero => exact h
  | succ rounds ih =>
    unfold issueRounds
    split
    · exact h
    · rename_i i v head
      exact ite_keeps (fun _ => ih (ticket _ _ _ (head_found head) h)) fun _ => h

theorem issuePass_running (s : State) : s.issuePass.dup.running = s.dup.running := by
  refine issuePass_invariant (P := fun u => u.dup.running = s.dup.running)
    (fun u i v _ h => Eq.trans ?_ h) rfl
  unfold State.issueTicket
  split <;> rfl

theorem restoreEnds_running (s : State) : s.restoreEnds.dup.running = s.dup.running - 1 := by
  unfold State.restoreEnds
  dsimp only
  split
  · rename_i last
    exact (issuePass_running _).trans last.1.symm
  · rfl

/-- A volume record without what a ticket writes (R133, R150). -/
def unsent (v : Volume) : Volume := { v with send := .extents [], outstanding := 0 }

theorem unsent_fields {a b : Volume} (h : unsent a = unsent b) :
    a.current = b.current ∧ a.fullScan = b.fullScan ∧ a.retained = b.retained := by
  have ofCurrent := congrArg Volume.current h
  have ofScan := congrArg Volume.fullScan h
  have ofRetained := congrArg Volume.retained h
  exact ⟨ofCurrent, ofScan, ofRetained⟩

theorem issueTicket_unsent (found : s.vol i = some v) :
    (s.issueTicket i v).cat.snaps = s.cat.snaps ∧
      ∀ j, ((s.issueTicket i v).vol j).map unsent = (s.vol j).map unsent := by
  unfold State.issueTicket
  split
  · exact ⟨rfl, fun _ => rfl⟩
  · refine ⟨rfl, fun j => ?_⟩
    by_cases here : j = i
    · subst here
      exact (congrArg _ (vol_putVol_self ..)).trans (by rw [found]; rfl)
    · exact congrArg _ (vol_putVol_other _ here _)

/-- An issue pass, if one is due, leaves the events, the snapshots and what no ticket writes. -/
theorem issueIfFreed_keeps (s : State) (n : Nat) :
    (s.issueIfFreed n).port.events = s.port.events ∧
      (s.issueIfFreed n).cat.snaps = s.cat.snaps ∧
      ∀ j, ((s.issueIfFreed n).vol j).map unsent = (s.vol j).map unsent := by
  unfold State.issueIfFreed
  split
  · have kept := issuePass_invariant (s := s) (P := fun u => u.cat.snaps = s.cat.snaps ∧
      ∀ j, (u.vol j).map unsent = (s.vol j).map unsent) (fun u i v found h =>
        ⟨(issueTicket_unsent found).1.trans h.1,
          fun j => ((issueTicket_unsent found).2 j).trans (h.2 j)⟩) ⟨rfl, fun _ => rfl⟩
    exact ⟨(issuePass_keeps s).1, kept⟩
  · exact ⟨rfl, rfl, fun _ => rfl⟩

theorem issueIfFreed_same (same : s.poolFree = n) : s.issueIfFreed n = s :=
  if_neg (by rw [same]; exact Nat.lt_irrefl n)

/-- The record of a volume behind an issue pass that entries returned to the pool may start. -/
theorem issueIfFreed_vol (found : s.vol i = some v) (n : Nat) :
    ∃ w, (s.issueIfFreed n).vol i = some w ∧ w.current = v.current ∧ w.fullScan = v.fullScan ∧
      w.retained = v.retained := by
  have kept := (issueIfFreed_keeps s n).2.2 i
  rw [found] at kept
  obtain ⟨w, stands, same⟩ := Option.map_eq_some_iff.mp kept
  exact ⟨w, stands, unsent_fields same⟩

/-! ### Extents -/

/-- An extent is passed over while FULL_SCAN is set (R130). -/
theorem appendCurrent_scanning (found : s.vol i = some v) (scan : v.fullScan = true) :
    s.appendCurrent i x = s := by
  unfold State.appendCurrent
  rw [found]
  exact if_pos scan

/-- An extent that the pool has the entries for joins its run (R126, R127). -/
theorem appendCurrent_joins (found : s.vol i = some v) (listed : v.fullScan = false)
    (fits : (joinExtent v.current x).pieces ≤ s.poolFree + (joinExtent v.current x).absorbed) :
    s.appendCurrent i x = (s.putVol i (some { v with current := (joinExtent v.current x).list })).setPool
      (s.poolFree + (joinExtent v.current x).absorbed - (joinExtent v.current x).pieces) := by
  unfold State.appendCurrent
  rw [found]
  dsimp only
  rw [if_neg (by simp [listed])]
  exact if_pos fits

/-- Any other makes the list overflow (R128). -/
theorem appendCurrent_overflows (found : s.vol i = some v) (listed : v.fullScan = false)
    (short : s.poolFree + (joinExtent v.current x).absorbed < (joinExtent v.current x).pieces) :
    s.appendCurrent i x = ((s.putVol i (some { v with current := [], fullScan := true })).setPool
      (s.poolFree + v.current.length)).raise .listOverflow v.id := by
  unfold State.appendCurrent
  rw [found]
  dsimp only
  rw [if_neg (by simp [listed])]
  exact if_neg (Nat.not_le.mpr short)

theorem findVol_of_vol (same : t.vol = s.vol) (id : Nat) : t.findVol id = s.findVol id := by
  unfold State.findVol
  rw [same]

theorem appendExtent_empty (volume start : Nat) : s.appendExtent volume start 0 = s := by
  unfold State.appendExtent
  split
  · rfl
  · exact if_pos rfl

theorem appendExtent_found {volume start length : Nat} (found : s.findVol volume = some (i, v))
    (some : length ≠ 0) :
    s.appendExtent volume start length = s.appendCurrent i { start, length } := by
  unfold State.appendExtent
  rw [found]
  exact if_neg some

/-! ### Events -/

/-- A kind's entry stands in the event summary as it stood (R174). -/
def SameEvent (k : EventKind) (s t : State) : Prop :=
  t.port.events[k.index] = s.port.events[k.index]

section Events

variable {k : EventKind}

theorem SameEvent.refl (s : State) : SameEvent k s s := rfl

theorem SameEvent.trans (h : SameEvent k s t) (g : SameEvent k t u) : SameEvent k s u := Eq.trans g h

theorem SameEvent.of_events (h : t.port.events = s.port.events) : SameEvent k s t := by
  unfold SameEvent
  rw [h]

theorem SameEvent.of_changes {l : List Block} (hp : .port ∉ l) (h : ChangesOnly l s t) :
    SameEvent k s t :=
  .of_events (congrArg Port.events (h.2 .port hp))

theorem SameEvent.ite {p : Prop} [Decidable p] {a b : State} (h : p → SameEvent k s a)
    (g : ¬p → SameEvent k s b) : SameEvent k s (if p then a else b) := ite_keeps h g

theorem sameEvent_raise {j : EventKind} (other : k.index ≠ j.index) (n : Nat) :
    SameEvent k s (s.raise j n) := events_raise_other s other n

theorem sameEvent_answer (s : State) (kind tag : Nat) (st : Status) (b : Body) :
    SameEvent k s (s.answer kind tag st b) :=
  SameEvent.trans (t := s.place _) rfl (.of_events (events_flushEvent _))

theorem sameEvent_issueIfFreed (s : State) (n : Nat) : SameEvent k s (s.issueIfFreed n) :=
  .of_events (issueIfFreed_keeps s n).1

theorem sameEvent_appendExtent (other : k.index ≠ EventKind.index .listOverflow) (s : State)
    (volume start length : Nat) : SameEvent k s (s.appendExtent volume start length) := by
  unfold State.appendExtent
  split
  · exact .refl s
  refine .ite (fun _ => .refl s) fun _ => ?_
  unfold State.appendCurrent
  split
  · exact .refl s
  · exact .ite (fun _ => .refl s) fun _ => .ite (fun _ => rfl) fun _ => sameEvent_raise other _

/-- A raise stays raised while the kind's entry stands before and after it. -/
theorem raised_between {a b : State} (before : SameEvent k s a) (raised : Raised a b k n)
    (after : SameEvent k b t) : Raised s t k n := by
  unfold Raised at *
  rw [show t.port.events[k.index] = b.port.events[k.index] from after, raised,
    show a.port.events[k.index] = s.port.events[k.index] from before]

end Events

/-! ### An extent in the current list -/

/-- How an extent is noted in the current list of its volume: not at all, joined with its run, or by
an overflow (R126 to R130). -/
def Noted (s t : State) (v w : Volume) (x : Extent) : Prop :=
  let j := joinExtent v.current x
  (x.length = 0 ∨ v.fullScan = true → w.current = v.current ∧ w.fullScan = v.fullScan) ∧
  (x.length ≠ 0 → v.fullScan = false → j.pieces ≤ s.poolFree + j.absorbed →
    w.current = j.list ∧ w.fullScan = false) ∧
  (x.length ≠ 0 → v.fullScan = false → s.poolFree + j.absorbed < j.pieces →
    w.current = [] ∧ w.fullScan = true ∧ Raised s t .listOverflow v.id)

/-- The steps around the noting of an extent that leave the pool, the list and the event. -/
theorem Noted.between {a b : State} {va vb w : Volume} (h : Noted a b va vb x)
    (pool : a.poolFree = s.poolFree) (before : SameEvent .listOverflow s a)
    (after : SameEvent .listOverflow b t)
    (named : va.id = v.id ∧ va.current = v.current ∧ va.fullScan = v.fullScan)
    (stands : w.current = vb.current ∧ w.fullScan = vb.fullScan) : Noted s t v w x := by
  obtain ⟨ofId, ofCurrent, ofScan⟩ := named
  unfold Noted at *
  rw [pool, ofId, ofCurrent, ofScan] at h
  rw [stands.1, stands.2]
  obtain ⟨passes, joins, overflows⟩ := h
  refine ⟨passes, joins, fun some listed short => ?_⟩
  obtain ⟨empty, scan, raised⟩ := overflows some listed short
  exact ⟨empty, scan, raised_between before raised after⟩

theorem appendExtent_noted {volume start length : Nat} (found : s.findVol volume = some (i, v)) :
    let t := s.appendExtent volume start length
    ∃ w, t.vol i = some w ∧ w = { v with current := w.current, fullScan := w.fullScan } ∧
      Noted s t v w { start, length } ∧ t.cat.snaps = s.cat.snaps := by
  intro t
  have stands := findVol_some found
  have ran : t = s.appendExtent volume start length := rfl
  by_cases empty : length = 0
  · rw [empty, appendExtent_empty] at ran
    rw [ran]
    exact ⟨v, stands, rfl, ⟨fun _ => ⟨rfl, rfl⟩, fun some => absurd empty some,
      fun some => absurd empty some⟩, rfl⟩
  rw [appendExtent_found found empty] at ran
  cases scan : v.fullScan with
  | true =>
    rw [appendCurrent_scanning stands scan] at ran
    rw [ran]
    exact ⟨v, stands, rfl, ⟨fun _ => ⟨rfl, rfl⟩, fun _ listed => absurd (scan.symm.trans listed)
      (by decide), fun _ listed => absurd (scan.symm.trans listed) (by decide)⟩, rfl⟩
  | false =>
    have noted (h : length = 0 ∨ v.fullScan = true) : False := by
      rw [scan] at h
      exact h.elim empty (by decide)
    by_cases fits : (joinExtent v.current { start, length }).pieces ≤
        s.poolFree + (joinExtent v.current { start, length }).absorbed
    · rw [appendCurrent_joins stands scan fits] at ran
      rw [ran]
      exact ⟨_, vol_putVol_self .., rfl, ⟨fun h => (noted h).elim, fun _ _ _ => ⟨rfl, scan⟩,
        fun _ _ short => absurd fits (Nat.not_le.mpr short)⟩, rfl⟩
    · rw [appendCurrent_overflows stands scan (Nat.not_le.mp fits)] at ran
      rw [ran]
      exact ⟨_, vol_putVol_self .., rfl, ⟨fun h => (noted h).elim,
        fun _ _ joins => absurd joins fits, fun _ _ _ => ⟨rfl, rfl,
        raise_raised (s := (s.putVol i _).setPool _) .listOverflow v.id⟩⟩, rfl⟩

end Sys2Proof.Proofs

/-! PROOFS. The end of a restore job (R45, R120, R160): settles O30. -/

namespace Sys2Proof.Proofs

open Sys2Proof.Machine Sys2Proof.Safety

variable {s t u w : State} {e : Reservation} {c : Fin 4} {x : Context} {o : Owner}

/-! ### The end step -/

/-- Without notice room, or before its end is due, a context stands (R120). -/
theorem restoreEndStep_waits (found : s.context c = some x)
    (waits : s.room = false ∨ x.endDue = false) : s.restoreEndStep c = s := by
  unfold State.restoreEndStep
  rw [found]
  refine if_neg ?_
  rintro ⟨due, room⟩
  rcases waits with full | early
  · rw [full] at room
    cases room
  · rw [early] at due
    cases due

/-- The end step behind the return of the residual reservation (R120). -/
def jobEnded (w : State) (c : Fin 4) (x : Context) (returned : Nat) : State :=
  (((((w.freeContext c x).notice 5 (.restoreEnd c x.job x.outcome x.copiedCount x.charged
    returned)).restoreEnds).evaluateIfOver x.sourceSlot)).flushEvent

theorem restoreEndStep_noEntry (found : s.context c = some x) (room : s.room = true)
    (due : x.endDue = true) (none : x.handle.bind s.entryByHandle = none) :
    s.restoreEndStep c = jobEnded s c x 0 := by
  unfold State.restoreEndStep
  rw [found]
  refine (if_pos ⟨due, room⟩).trans ?_
  dsimp only
  rw [none]
  rfl

theorem restoreEndStep_entry (found : s.context c = some x) (room : s.room = true)
    (due : x.endDue = true) (entry : x.handle.bind s.entryByHandle = some e) :
    s.restoreEndStep c = jobEnded (s.removeEntry e fun o => o) c x e.blocks := by
  unfold State.restoreEndStep
  rw [found]
  refine (if_pos ⟨due, room⟩).trans ?_
  dsimp only
  rw [entry]
  rfl

theorem places_of_port {r : Record} (same : w.port = s.port) (h : Places w t r) :
    Places s t r := by
  unfold Places at *
  rwa [same] at h

/-- What the end of a job leaves: the context free, one restore fewer, the notice placed (R120). -/
theorem jobEnded_leaves (w : State) (c : Fin 4) (x : Context) (returned : Nat) :
    let t := jobEnded w c x returned
    t.context c = none ∧ t.dup.running = w.dup.running - 1 ∧
      ChangesOnly [.rsc, .cat, .pool, .dup, .port] w t ∧
      Places w t (noticeOf 5 (.restoreEnd c x.job x.outcome x.copiedCount x.charged returned)) := by
  intro t
  let freed := w.freeContext c x
  let told := freed.notice 5 (.restoreEnd c x.job x.outcome x.copiedCount x.charged returned)
  let ended := told.restoreEnds
  have freeing : ChangesOnly [.rsc, .cat] w freed := freeContext_changes ..
  have telling : ChangesOnly [.port] freed told := notice_changes ..
  have ending : ChangesOnly night told ended := restoreEnds_changes _
  have behind : ChangesOnly [.cat, .port] ended t :=
    (evaluateIfOver_changes ..).trans (within (by decide) (flushEvent_changes _))
  have after : ChangesOnly night freed t :=
    ((within (by decide) telling).trans ending).trans (within (by decide) behind)
  have dup : t.dup = ended.dup := behind.2 .dup (by decide)
  have before : told.dup = w.dup := (telling.2 .dup (by decide)).trans (freeing.2 .dup (by decide))
  refine ⟨?_, ?_, (within (by decide) freeing).trans (within (by decide) after), ?_⟩
  · rw [context_of_changes (by decide) after]
    exact freeContext_context ..
  · rw [dup, restoreEnds_running, before]
  · refine places_of_port (freeing.2 .port (by decide)) (Grows.places ?_)
    exact (restoreEnds_grows told).trans ((evaluateIfOver_grows ..).trans (flushEvent_grows _))

/-- Settles O30: the step that waits, the end without an entry, the end with its residue. -/
theorem restoreEndReturnsTheResidue : Obligations.RestoreEndReturnsTheResidue := by
  intro s c x released found
  have run : exec (.restoreEndStep c) s = .next (s.restoreEndStep c) :=
    exec_released (f := fun s => s.restoreEndStep c) rfl released
  refine ⟨fun waits => run.trans (congrArg _ (restoreEndStep_waits found waits)), ?_⟩
  intro room due copied outcome
  have ofOutcome : x.outcome = outcome := rfl
  refine ⟨fun none => ?_, fun h e o handle entry record => ?_⟩
  · rw [restoreEndStep_noEntry found room due (by rw [none]; rfl)] at run
    obtain ⟨free, count, only, placed⟩ := jobEnded_leaves s c x 0
    exact ⟨_, run, free, only.2 .owners (by decide), only.2 .adm (by decide), count,
      ofOutcome ▸ placed⟩
  · rw [restoreEndStep_entry found room due (by rw [handle]; exact entry)] at run
    obtain ⟨adm, touched, others, removed⟩ :=
      removeEntry_leaves (f := fun o => o) (fun _ => rfl) record
    obtain ⟨free, count, only, placed⟩ := jobEnded_leaves (s.removeEntry e fun o => o) c x e.blocks
    have owners := findOwner_of_changes (by decide) only
    have dup : (s.removeEntry e fun o => o).dup = s.dup := removed.2 .dup (by decide)
    exact ⟨_, run, free, (only.2 .adm (by decide)).trans adm, (owners _).trans touched,
      fun k other => (owners k).trans (others k other), count.trans (by rw [dup]),
      ofOutcome ▸ places_of_port (removed.2 .port (by decide)) placed⟩

end Sys2Proof.Proofs

/-! PROOFS. COPIED of an item that does not end its job (R44, R116 to R118): settles O27. -/

namespace Sys2Proof.Proofs

open Sys2Proof.Machine Sys2Proof.Safety

variable {s t u w : State} {e : Reservation} {c : Fin 4} {x y : Context} {o : Owner} {item : Item}
  {k n tag : Nat} {ok : Bool}

/-! ### A job that goes on -/

theorem putContext_self (found : s.context c = some x) : s.putContext c (some x) = s := by
  have stands : s.rsc.contexts.set c (some x) = s.rsc.contexts := by
    rw [← found]
    exact Vector.set_getElem_self _
  unfold State.putContext
  rw [stands]
  rfl

/-- The test for the end of a job that has not come to its end marks nothing (R120). -/
theorem testJobEnd_goesOn (found : s.context c = some x) (on : x.ended = false) :
    s.testJobEnd c = s := by
  unfold State.testJobEnd State.modifyContext
  rw [found]
  dsimp only
  rw [on]
  exact putContext_self found

/-- An item answered leaves as many items copied as before, and one more if it was copied. -/
theorem answered_copiedCount (at_ : x.items[k]? = some item) (outstanding : item.state = .outstanding) :
    (x.answered k item ok).copiedCount = x.copiedCount + if ok then 1 else 0 := by
  obtain ⟨bound, here⟩ := List.getElem?_eq_some_iff.mp at_
  have count (st : ItemState) : ((x.items.set k { item with state := st }).filter
      (·.state == .copied)).length = (x.items.filter (·.state == .copied)).length +
        if st = .copied then 1 else 0 := by
    rw [← List.countP_eq_length_filter, ← List.countP_eq_length_filter, List.countP_set bound, here,
      outstanding]
    simp
  cases ok with
  | true => exact count .copied
  | false => exact count .failed

/-! ### COPY notices -/

/-- What the sending of a PENDING item keeps in a context, COPY notices keep (R114). -/
theorem placeCopies_invariant {P : Context → Prop}
    (send : ∀ z i (item : Item), z.items[i]? = some item → item.state = .pending → P z →
      P { z with items := z.items.set i { item with state := .outstanding }
                 outstanding := z.outstanding + 1 })
    (found : s.context c = some x) (h : P x) : ∃ y, s.placeCopies.context c = some y ∧ P y := by
  unfold State.placeCopies
  generalize 16 = rounds
  induction rounds generalizing s x with
  | zero => exact ⟨x, found, h⟩
  | succ rounds ih =>
    unfold copyRounds
    split
    · exact ⟨x, found, h⟩
    split
    · rename_i d z next _
      obtain ⟨served, -⟩ := nextCopy_some next
      have placed : ∃ y, (s.placeCopy d z).context c = some y ∧ P y := by
        unfold State.placeCopy
        dsimp only
        split
        · exact ⟨x, found, h⟩
        · rename_i item at_
          by_cases here : c = d
          · subst here
            obtain rfl : x = z := Option.some.inj (found.symm.trans served)
            obtain ⟨bound, is⟩ := List.getElem?_eq_some_iff.mp at_
            have pending := List.findIdx_getElem (xs := x.items) (p := (·.state == .pending))
              (w := bound)
            rw [is, beq_iff_eq] at pending
            exact ⟨_, context_putContext_self .., send x _ item at_ pending h⟩
          · exact ⟨x, (context_putContext_other s here _).trans found, h⟩
      obtain ⟨y, stands, holds⟩ := placed
      exact ih stands holds
    · exact ⟨x, found, h⟩

/-- A RUNNING job with an item copied and blocks charged. -/
def HasCopied (k : Nat) (item : Item) (charged : Nat) (y : Context) : Prop :=
  y.state = .running ∧ y.charged = charged ∧ y.items[k]? = some { item with state := .copied }

theorem placeCopies_copied {charged : Nat} (found : s.context c = some x)
    (h : HasCopied k item charged x) :
    ∃ y, s.placeCopies.context c = some y ∧ HasCopied k item charged y := by
  refine placeCopies_invariant (fun z i waiting at_ pending hz => ?_) found h
  obtain ⟨state, total, copied⟩ := hz
  have other : i ≠ k := by
    rintro rfl
    obtain rfl := Option.some.inj (at_.symm.trans copied)
    cases pending
  exact ⟨state, total, (List.getElem?_set_ne other).trans copied⟩

/-! ### The charge of a copied item -/

theorem chargeRestore_noEntry (none : x.handle.bind s.entryByHandle = none) :
    s.chargeRestore x n = s := by
  unfold State.chargeRestore
  rw [none]

/-- The charge of a copied item: its blocks leave the entry and local reserved and join local used
(R44). -/
theorem chargeRestore_leaves (entry : x.handle.bind s.entryByHandle = some e)
    (record : s.findOwner e.owner = some o) :
    let t := s.chargeRestore x n
    t.adm = { s.adm with entries := s.adm.entries.map fun z =>
        if z.slot = e.slot then { z with blocks := z.blocks - n } else z } ∧
      t.findOwner e.owner = some (s.reevaluate { o with
        reserved := o.reserved - n
        used := min (o.used + n) 4294967295
        lastCharge := s.time.uptime }) ∧ OthersKept e.owner s t := by
  intro t
  let less : Admission := { s.adm with entries := s.adm.entries.map fun z =>
    if z.slot = e.slot then { z with blocks := z.blocks - n } else z }
  let f : Owner → Owner := fun o => Owner.charge { o with reserved := o.reserved - n } n s.now
  have run : t = ((s.setAdm less).touchOwner e.owner f).usedChanged e.owner (s.usedOf e.owner) := by
    change s.chargeRestore x n = _
    unfold State.chargeRestore
    rw [entry]
  have same : SameFigures s (s.setAdm less) := .of_changes (by decide) (setAdm_changes s less)
  obtain ⟨touched, others, -, only⟩ := touched_noted (s := s.setAdm less) (f := f) (fun _ => rfl)
    record (s.usedOf e.owner)
  rw [← run] at touched others only
  rw [same.reevaluate] at touched
  exact ⟨only.2 .adm (by decide), touched, others⟩

/-! ### The request -/

/-- The state behind an item answered and, if it was copied, charged and noted in the change list of
the target (R44, R117). -/
def itemAnswered (s : State) (c : Fin 4) (x : Context) (k : Nat) (item : Item) (ok : Bool) : State :=
  let w := s.putContext c (some (x.answered k item ok))
  if ok then (w.chargeRestore x item.length).appendCurrent x.targetSlot
    { start := item.target, length := item.length } else w

/-- What an answered item changes beside the restore jobs. -/
theorem itemAnswered_changes : ChangesOnly [.owners, .adm, .link, .cat, .pool, .port]
    (s.putContext c (some (x.answered k item ok))) (itemAnswered s c x k item ok) :=
  .ite (fun _ => andThen (by decide) (within (by decide) (chargeRestore_changes ..))
    (appendCurrent_changes ..)) fun _ => .refl _ _

theorem itemAnswered_context :
    (itemAnswered s c x k item ok).context c = some (x.answered k item ok) := by
  rw [context_of_changes (by decide) itemAnswered_changes]
  exact context_putContext_self ..

theorem itemAnswered_quiet : Quiet s (itemAnswered s c x k item ok) := by
  have put : Quiet s (s.putContext c (some (x.answered k item ok))) := ⟨rfl, rfl⟩
  refine put.trans (.ite (fun _ => ?_) fun _ => .refl _)
  exact (Quiet.of_changes (chargeRestore_changes ..) (by decide)).trans (appendCurrent_quiet ..)

/-- A COPIED that does not end its job: the item is answered, then COPY notices follow while the job
runs (R116). -/
theorem copiedRequest_goesOn {q : CopiedReq} (context : q.context = c.val) (index : q.item ≤ 31)
    (result : q.result = if ok then 0 else 1) (job : s.context c = some x) (name : x.job = q.job)
    (state : x.state = .running) (at_ : x.items[q.item]? = some item)
    (outstanding : item.state = .outstanding) (on : (x.answered q.item item ok).ended = false)
    (open_ : x.endDue = false) :
    let y := x.answered q.item item ok
    let told := (itemAnswered s c x q.item item ok).answer 15 tag .ok
      (.copied (if ok then .copied else .failed) y.copiedCount y.outstanding y.state.shown)
    copiedRequest tag q s =
      (if y.state = .running then told.placeCopies else told).issueIfFreed s.poolFree := by
  intro y told
  have isOk : (q.result == 0) = ok := by
    rw [result]
    cases ok <;> rfl
  have low : ¬ (3 < q.context ∨ 31 < q.item ∨ 1 < q.result) := by
    have : q.result ≤ 1 := by
      rw [result]
      split <;> decide
    omega
  have early : y.endDue = false := by
    change (x.answered q.item item ok).endDue = false
    unfold Context.answered
    cases ok <;> exact open_
  have answered : (itemAnswered s c x q.item item ok).context c = some y := itemAnswered_context
  have stands : told.context c = some y := by
    rw [context_of_changes (by decide) (answer_changes ..)]
    exact answered
  have waits := restoreEndStep_waits stands (.inr early)
  unfold copiedRequest
  rw [if_neg low, context, findJob_of_context job name]
  dsimp only
  rw [at_]
  dsimp only
  rw [if_neg (by simp [state, outstanding]), isOk]
  change State.issueIfFreed (if y.state = .running then State.placeCopies (State.restoreEndStep
    (State.answer (State.testJobEnd (itemAnswered s c x q.item item ok) c) 15 tag .ok _) c)
    else State.restoreEndStep
    (State.answer (State.testJobEnd (itemAnswered s c x q.item item ok) c) 15 tag .ok _) c) _ = _
  rw [testJobEnd_goesOn answered on, waits]

theorem copied_goesOn {q : CopiedReq} (state : x.state = .running)
    (at_ : x.items[q.item]? = some item) (outstanding : item.state = .outstanding)
    (fewer : x.copiedCount + 1 < x.k) : (x.answered q.item item true).ended = false := by
  have count := answered_copiedCount (ok := true) at_ outstanding
  have running : (x.answered q.item item true).state = .running := state
  have same : (x.answered q.item item true).k = x.k := rfl
  unfold Context.ended
  rw [running, count, same]
  exact beq_false_of_ne (Nat.ne_of_lt fewer)

theorem failed_goesOn (more : 2 ≤ x.outstanding) : (x.answered k item false).ended = false := by
  have : x.outstanding - 1 ≠ 0 := by omega
  exact beq_false_of_ne this

/-- Settles O27: the item copied with its charge, the item failed. -/
theorem copiedChargesOrDrains : Obligations.CopiedChargesOrDrains := by
  intro s r q c x item takes parsed context index job name state open_ at_ outstanding
  have run : exec .copied s = .next (copiedRequest (recordTag r) q s.dropHead) :=
    whenReleased_taken takes parsed
  have bound := (List.getElem?_eq_some_iff.mp at_).1
  refine ⟨fun result fewer => ?_, fun result more => ?_⟩
  · let y := x.answered q.item item true
    let put := s.dropHead.putContext c (some y)
    let charged := put.chargeRestore x item.length
    let answered := itemAnswered s.dropHead c x q.item item true
    let told := answered.answer 15 (recordTag r) .ok
      (.copied .copied y.copiedCount y.outstanding y.state.shown)
    have count : y.copiedCount = x.copiedCount + 1 := answered_copiedCount (ok := true) at_ outstanding
    have running : y.state = .running := state
    have putting : ChangesOnly [.rsc, .port] s put :=
      (within (by decide) (dropHead_changes s)).trans (within (by decide) (putContext_changes ..))
    have telling : ChangesOnly [.port] answered told := answer_changes ..
    have noting : ChangesOnly [.cat, .pool, .port] charged told :=
      (appendCurrent_changes charged ..).trans (within (by decide) telling)
    have placing : ChangesOnly [.rsc, .port] told told.placeCopies := placeCopies_changes told
    have issuing : ChangesOnly night told.placeCopies (told.placeCopies.issueIfFreed s.poolFree) :=
      issueIfFreed_changes ..
    have after : ChangesOnly [.rsc, .cat, .pool, .dup, .port] charged
        (told.placeCopies.issueIfFreed s.poolFree) :=
      ((within (by decide) noting).trans (within (by decide) placing)).trans
        (within (by decide) issuing)
    have stands : told.context c = some y := by
      rw [context_of_changes (by decide) telling]
      exact itemAnswered_context
    obtain ⟨z, final, ran, total, copied⟩ := placeCopies_copied (item := item) (k := q.item)
      (charged := x.charged + item.length) stands ⟨running, rfl, List.getElem?_set_self bound⟩
    rw [copiedRequest_goesOn (s := s.dropHead) (ok := true) context index result job name state at_
      outstanding (copied_goesOn state at_ outstanding fewer) open_] at run
    rw [if_pos running] at run
    change exec .copied s = .next (told.placeCopies.issueIfFreed s.poolFree) at run
    have owners := findOwner_of_changes (by decide) after
    refine ⟨_, z, run, ?_, ran, total, copied, ?_, fun none => ?_, fun h e o handle entry record => ?_⟩
    · rw [context_of_changes (by decide) issuing]
      exact final
    · rw [← count, ← show y.state.shown = .running by rw [running]; rfl]
      exact answered_of_quiet itemAnswered_quiet
        ((placeCopies_grows told).trans (issueIfFreed_grows ..))
    · have same : charged = put := chargeRestore_noEntry (by rw [none]; rfl)
      exact ⟨(after.2 .owners (by decide)).trans (by rw [same]; rfl),
        (after.2 .adm (by decide)).trans (by rw [same]; rfl)⟩
    · obtain ⟨adm, touched, others⟩ := chargeRestore_leaves (s := put) (x := x) (n := item.length)
        (by rw [handle]; exact entry) record
      have same : SameFigures s put := .of_changes (by decide) putting
      rw [same.reevaluate] at touched
      exact ⟨(after.2 .adm (by decide)).trans adm, (owners _).trans touched,
        fun k other => (owners k).trans (others k other)⟩
  · have count : (x.answered q.item item false).copiedCount = x.copiedCount :=
      answered_copiedCount (ok := false) at_ outstanding
    rw [copiedRequest_goesOn (s := s.dropHead) (ok := false) context index result job name state at_
      outstanding (failed_goesOn more) open_] at run
    rw [if_neg (by simp [Context.answered])] at run
    let answered := itemAnswered s.dropHead c x q.item item false
    let told := answered.answer 15 (recordTag r) .ok
      (.copied .failed (x.answered q.item item false).copiedCount (x.outstanding - 1) .draining)
    have telling : ChangesOnly [.port] answered told := answer_changes ..
    change exec .copied s = .next (told.issueIfFreed s.poolFree) at run
    rw [issueIfFreed_same (show told.poolFree = s.poolFree from telling.2 .pool (by decide))] at run
    refine ⟨_, run, ?_, ?_, ?_⟩
    · rw [context_of_changes (by decide) telling]
      exact itemAnswered_context
    · rw [← count]
      exact answered_alone itemAnswered_quiet
    · exact andThen (by decide) (andThen (by decide) (within (by decide) (dropHead_changes s))
        (putContext_changes ..)) telling

end Sys2Proof.Proofs

/-! PROOFS. COMMIT under its entry, late or untracked (R38, R39, R126 to R130): settles O13 and
O14. -/

namespace Sys2Proof.Proofs

open Sys2Proof.Machine Sys2Proof.Safety

variable {s t w : State} {o : Owner} {e : Reservation} {q : CommitReq} {tag n : Nat} {i : Fin 8}
  {v : Volume} {st : Status} {quota : QuotaState} {charged used : Nat} {cls : Fin 8} {r : Bytes}

/-! ### The extent of a COMMIT -/

/-- A COMMIT whose extent changes nothing starts no issue pass (R149). -/
theorem finishCommit_still (still : w.appendExtent q.volume q.start q.length = w) :
    w.finishCommit tag q st charged used quota =
      w.answer 3 tag st (.commit charged used quota) := by
  unfold State.finishCommit
  rw [still]
  exact issueIfFreed_same ((answer_changes ..).2 .pool (by decide))

/-- A COMMIT that notes no extent leaves the volumes and the pool (R126, R130). -/
theorem finishCommit_unnoted (still : w.appendExtent q.volume q.start q.length = w) :
    let t := w.finishCommit tag q st charged used quota
    t.cat = w.cat ∧ t.poolFree = w.poolFree := by
  intro t
  have told : ChangesOnly [.port] w t := by
    rw [show t = w.answer 3 tag st _ from finishCommit_still still]
    exact answer_changes ..
  exact ⟨told.2 .cat (by decide), told.2 .pool (by decide)⟩

theorem finishCommit_noted (found : w.findVol q.volume = some (i, v)) :
    let t := w.finishCommit tag q st charged used quota
    ∃ z, t.vol i = some z ∧ Noted w t v z { start := q.start, length := q.length } := by
  intro t
  obtain ⟨a, stands, -, noted, -⟩ := appendExtent_noted (start := q.start) (length := q.length) found
  let told := (w.appendExtent q.volume q.start q.length).answer 3 tag st (.commit charged used quota)
  have told_stands : told.vol i = some a :=
    (vol_of_changes (by decide) (answer_changes ..) i).trans stands
  obtain ⟨z, final, current, scan, -⟩ := issueIfFreed_vol told_stands w.poolFree
  exact ⟨z, final, noted.between rfl (.refl _)
    ((sameEvent_answer ..).trans (sameEvent_issueIfFreed told w.poolFree)) ⟨rfl, rfl, rfl⟩
    ⟨current, scan⟩⟩

/-- The extent of a COMMIT: nothing to note, passed over, joined with its run, or an overflow
(R126 to R130). -/
theorem finishCommit_extent (some : q.length ≠ 0) (found : w.findVol q.volume = .some (i, v)) :
    let t := w.finishCommit tag q st charged used quota
    let j := joinExtent v.current { start := q.start, length := q.length }
    (v.fullScan = true → t.cat = w.cat ∧ t.poolFree = w.poolFree) ∧
      (v.fullScan = false → j.pieces ≤ w.poolFree + j.absorbed →
        ∃ z, t.vol i = .some z ∧ z.current = j.list ∧ z.fullScan = false) ∧
      (v.fullScan = false → w.poolFree + j.absorbed < j.pieces →
        Raised w t .listOverflow v.id ∧
          ∃ z, t.vol i = .some z ∧ z.current = [] ∧ z.fullScan = true) := by
  obtain ⟨z, stands, -, joins, overflows⟩ := finishCommit_noted (tag := tag) (st := st)
    (charged := charged) (used := used) (quota := quota) found
  refine ⟨fun scan => finishCommit_unnoted ?_, fun listed fits => ⟨z, stands, joins some listed fits⟩,
    fun listed short => ?_⟩
  · exact (appendExtent_found found some).trans (appendCurrent_scanning (findVol_some found) scan)
  · obtain ⟨empty, scan, raised⟩ := overflows some listed short
    exact ⟨raised, z, stands, empty, scan⟩

/-! ### Under an entry -/

theorem commitRequest_entry (valid : invalidOwner q.owner = false) (high : q.m ≤ 16777215)
    (extent : s.extentCheck q = none) (nonzero : q.handle ≠ 0)
    (found : s.entryByHandle q.handle = some e) (owner : e.owner = q.owner)
    (origin : e.origin = .write) (volume : q.length = 0 ∨ q.volume = e.volume) :
    commitRequest tag q s = commitEntry tag q e s := by
  have own : ¬(e.owner ≠ q.owner ∨ e.origin ≠ .write ∨ (q.length ≠ 0 ∧ q.volume ≠ e.volume)) := by
    rintro (other | other | ⟨some, other⟩)
    · exact other owner
    · exact other origin
    · exact volume.elim some other
  unfold commitRequest
  rw [if_neg (by simp [valid, maxRequestBlocks]; omega), extent]
  dsimp only
  rw [if_neg nonzero, found]
  exact if_neg own

/-- Settles O13: the entry leaves and its owner is charged, then the extent is noted. -/
theorem commitOfAnEntryChargesItsOwner : Obligations.CommitOfAnEntryChargesItsOwner := by
  intro s r q e o takes parsed valid high extent nonzero found owner origin volume record p
  have run : exec .commit s = .next (commitRequest (recordTag r) q s.dropHead) :=
    whenReleased_taken takes parsed
  rw [commitRequest_entry (s := s.dropHead) valid high extent nonzero found owner origin volume]
    at run
  let less : Admission := { s.adm with entries := s.adm.entries.filter (·.slot != e.slot) }
  let base := s.dropHead.setAdm less
  let charge : Owner → Owner := fun o =>
    Owner.charge { o with reserved := o.reserved - e.blocks } q.m s.now
  let noted := (base.touchOwner q.owner charge).usedChanged q.owner (s.usedOf q.owner)
  have toBase : ChangesOnly [.adm, .port] s base :=
    (within (by decide) (dropHead_changes s)).trans (within (by decide) (setAdm_changes ..))
  obtain ⟨stands, others, figures, only⟩ := touched_noted (s := base) (f := charge) (fun _ => rfl)
    record (s.usedOf q.owner)
  have same : SameFigures s base := .of_changes (by decide) toBase
  have found' : noted.findOwner q.owner = some p := stands.trans (congrArg some (same.reevaluate _))
  have used : noted.usedOf q.owner = p.used := usedOf_of_found found'
  have quota : noted.quotaOf q.owner = s.quotaState p :=
    (quotaOf_of_found found').trans ((same.trans figures).quotaState p)
  have ran : commitEntry (recordTag r) q e s.dropHead = noted.finishCommit (recordTag r) q
      (if q.m ≤ e.blocks then .ok else .exceeded) q.m (noted.usedOf q.owner)
      (noted.quotaOf q.owner) := by
    unfold commitEntry State.removeEntry
    rw [owner]
    rfl
  rw [ran, used, quota] at run
  have before : ChangesOnly [.owners, .adm, .link, .port] s noted :=
    (within (by decide) toBase).trans (within (by decide) only)
  have quiet : Quiet s.dropHead noted := .of_changes (l := [.owners, .adm, .link])
    ((within (by decide) (setAdm_changes ..)).trans (within (by decide) only)) (by decide)
  have finished := finishCommit_changes noted (recordTag r) q
    (if q.m ≤ e.blocks then .ok else .exceeded) q.m p.used (s.quotaState p)
  have owners := findOwner_of_changes (by decide) finished
  have cat : noted.cat = s.cat := before.2 .cat (by decide)
  have pool : noted.poolFree = s.poolFree := before.2 .pool (by decide)
  refine ⟨_, run, (finished.2 .adm (by decide)).trans (only.2 .adm (by decide)),
    (owners _).trans found', fun x other => (owners x).trans (others x other),
    finishCommit_answered quiet, fun empty => ?_, fun i v some named => ?_⟩
  · obtain ⟨sameCat, samePool⟩ := finishCommit_unnoted (tag := recordTag r)
      (st := if q.m ≤ e.blocks then .ok else .exceeded) (charged := q.m) (used := p.used)
      (quota := s.quotaState p) (empty ▸ appendExtent_empty (s := noted) ..)
    exact ⟨sameCat.trans cat, samePool.trans pool⟩
  · have vols : noted.vol = s.vol := funext (vol_of_changes (by decide) before)
    have extent := finishCommit_extent (tag := recordTag r)
      (st := if q.m ≤ e.blocks then .ok else .exceeded) (charged := q.m) (used := p.used)
      (quota := s.quotaState p) some ((findVol_of_vol vols _).trans named)
    rw [cat, pool] at extent
    obtain ⟨passes, joins, overflows⟩ := extent
    refine ⟨passes, joins, fun listed short => ?_⟩
    obtain ⟨raised, full⟩ := overflows listed short
    have sent : noted.port = base.port := only.2 .port (by decide)
    have quietly : noted.port.events = s.port.events := congrArg (·.events) sent
    exact ⟨raised_between (.of_events quietly) raised (.refl _), full⟩

/-! ### Without an entry -/

theorem commitLate_untracked (untracked : s.classOf q.owner = none) :
    commitLate tag q s = s.finishCommit tag q .untracked 0 0 .normal := by
  unfold commitLate
  rw [untracked]

/-- A late COMMIT whose owner's record stands or is made (R39). -/
theorem commitLate_ensured (tracked : s.classOf q.owner = some cls)
    (ensured : (s.raise .lateCommit q.owner.toNat).ensureOwner q.owner cls = some w) :
    let t := (w.touchOwner q.owner fun o => o.charge q.m w.now).usedChanged q.owner
      (s.usedOf q.owner)
    commitLate tag q s = t.finishCommit tag q .late q.m (t.usedOf q.owner) (t.quotaOf q.owner) := by
  unfold commitLate
  rw [tracked]
  dsimp only
  rw [ensured]

/-- Settles O14: an untracked owner, a tracked one charged late. -/
theorem commitWithoutAnEntry : Obligations.CommitWithoutAnEntry := by
  intro s r q takes parsed valid high extent late
  have run : exec .commit s = .next (commitRequest (recordTag r) q s.dropHead) :=
    whenReleased_taken takes parsed
  rw [commitRequest_late (s := s.dropHead) valid high extent late] at run
  refine ⟨fun untracked => ?_, ?_⟩
  · rw [commitLate_untracked (s := s.dropHead) untracked] at run
    have finished := finishCommit_changes s.dropHead (recordTag r) q .untracked 0 0 .normal
    exact ⟨_, run, finished.2 .adm (by decide), finished.2 .owners (by decide),
      finishCommit_answered (.refl _)⟩
  · intro cls tracked room o p
    let raised := s.dropHead.raise .lateCommit q.owner.toNat
    obtain ⟨l, made, stands, others⟩ := ensureOwner_stands (s := raised) (id := q.owner) (cls := cls)
      room
    rw [commitLate_ensured (s := s.dropHead) tracked made] at run
    let base := raised.setOwners l
    let charge : Owner → Owner := fun o => o.charge q.m base.now
    let noted := (base.touchOwner q.owner charge).usedChanged q.owner (s.usedOf q.owner)
    obtain ⟨touched, others', figures, only⟩ := touched_noted (s := base) (f := charge)
      (fun _ => rfl) stands (s.usedOf q.owner)
    have toRaised : ChangesOnly [.port] s raised := (dropHead_changes s).trans (raise_changes ..)
    have same : SameFigures s base := .trans (.of_changes (by decide) toRaised)
      (.of_changes (by decide) (setOwners_changes ..))
    have found : noted.findOwner q.owner = some p :=
      touched.trans (congrArg some (same.reevaluate _))
    have used : noted.usedOf q.owner = p.used := usedOf_of_found found
    have quota : noted.quotaOf q.owner = s.quotaState p :=
      (quotaOf_of_found found).trans ((same.trans figures).quotaState p)
    change exec .commit s = .next (noted.finishCommit (recordTag r) q .late q.m
      (noted.usedOf q.owner) (noted.quotaOf q.owner)) at run
    rw [used, quota] at run
    have charging : ChangesOnly [.owners, .link] raised noted :=
      (within (by decide) (setOwners_changes ..)).trans only
    have finished := finishCommit_changes noted (recordTag r) q .late q.m p.used (s.quotaState p)
    have owners := findOwner_of_changes (by decide) finished
    refine ⟨_, run, (finished.2 .adm (by decide)).trans ((charging.2 .adm (by decide)).trans
      (toRaised.2 .adm (by decide))), (owners _).trans found, fun x other => (owners x).trans
      ((others' x other).trans (others x other)), ?_, ?_⟩
    · exact raised_between (s := s) rfl (raise_raised (s := s.dropHead) .lateCommit q.owner.toNat)
        (.trans (.of_changes (by decide) charging) (sameLate_finishCommit ..))
    · exact finishCommit_answered ((raise_quiet ..).trans (.of_changes charging (by decide)))

end Sys2Proof.Proofs

/-! PROOFS. The requests that a check of their own rule refuses (R37, R41, R69, R87, R172, R184 to
R186). -/

namespace Sys2Proof.Proofs

open Sys2Proof.Machine Sys2Proof.Safety

variable {s : State} {o : Owner} {e : Reservation} {i : Fin 8} {v : Volume} {x : Snapshot}
  {tag : Nat} {r : Bytes}

/-- A request taken and answered at once with a refusal. -/
theorem refused_taken {α : Type} {kind : Nat} {parse : Bytes → Option α} {blank b : Body}
    {carry : Nat → α → State → State} {q : α} {c : Instr} {st : Status}
    (rule : exec c s = whenReleased s (takeRequest kind parse blank carry)) (takes : Takes s kind r)
    (parsed : parse r = some q)
    (refuses : carry (recordTag r) q s.dropHead = s.dropHead.answer kind (recordTag r) st b) :
    ∃ t, exec c s = .next t ∧ ChangesOnly [.port] s t ∧
      Answered s t (reply kind (recordTag r) st b) := by
  refine ⟨_, rule.trans (whenReleased_taken takes parsed), ?_⟩
  rw [refuses]
  exact ⟨refused_changes, answered_alone (.refl _)⟩

theorem reachesPast_iff {start length : Nat} :
    v.reachesPast start length = true ↔ v.size < start + length := decide_eq_true_iff

/-! ### RELEASE (R41) -/

section Release

variable {q : ReleaseReq}

theorem releaseRequest_badField
    (bad : invalidOwner q.owner = true ∨ q.volume = 0 ∨ 16777215 < q.blocks) :
    releaseRequest tag q s = s.answer 5 tag .badField (.release) := if_pos bad

theorem release_fieldsOk (valid : invalidOwner q.owner = false) (volume : q.volume ≠ 0)
    (high : q.blocks ≤ 16777215) :
    ¬(invalidOwner q.owner = true ∨ q.volume = 0 ∨ maxRequestBlocks < q.blocks) := by
  rintro (invalid | absent | above)
  · exact absurd (valid.symm.trans invalid) (by decide)
  · exact volume absent
  · exact absurd high (Nat.not_le.mpr above)

theorem releaseRequest_noSuch (valid : invalidOwner q.owner = false) (volume : q.volume ≠ 0)
    (high : q.blocks ≤ 16777215) (unknown : s.findVol q.volume = none) :
    releaseRequest tag q s = s.answer 5 tag .noSuch (.release) := by
  unfold releaseRequest
  rw [if_neg (release_fieldsOk valid volume high), unknown]

theorem releaseRequest_outside (valid : invalidOwner q.owner = false) (volume : q.volume ≠ 0)
    (high : q.blocks ≤ 16777215) (found : s.findVol q.volume = some (i, v))
    (outside : v.openEpoch < q.birth ∨ v.size < q.start + q.length) :
    releaseRequest tag q s = s.answer 5 tag .badField (.release) := by
  unfold releaseRequest
  rw [if_neg (release_fieldsOk valid volume high), found]
  exact if_pos (outside.imp_right reachesPast_iff.mpr)

end Release

/-! ### COMMIT (R37) -/

section Commit

variable {q : CommitReq} {st : Status}

theorem commitRequest_badField (bad : invalidOwner q.owner = true ∨ 16777215 < q.m) :
    commitRequest tag q s = s.answer 3 tag .badField (.commit) := if_pos bad

theorem commit_fieldsOk (valid : invalidOwner q.owner = false) (high : q.m ≤ 16777215) :
    ¬(invalidOwner q.owner = true ∨ maxRequestBlocks < q.m) := by
  rintro (invalid | above)
  · exact absurd (valid.symm.trans invalid) (by decide)
  · exact absurd high (Nat.not_le.mpr above)

theorem commitRequest_extent (valid : invalidOwner q.owner = false) (high : q.m ≤ 16777215)
    (fails : s.extentCheck q = some st) :
    commitRequest tag q s = s.answer 3 tag st (.commit) := by
  unfold commitRequest
  rw [if_neg (commit_fieldsOk valid high), fails]

theorem commitRequest_foreign (valid : invalidOwner q.owner = false) (high : q.m ≤ 16777215)
    (extent : s.extentCheck q = none) (nonzero : q.handle ≠ 0)
    (found : s.entryByHandle q.handle = some e)
    (foreign : e.owner ≠ q.owner ∨ e.origin ≠ .write ∨ (q.length ≠ 0 ∧ q.volume ≠ e.volume)) :
    commitRequest tag q s = s.answer 3 tag .badField (.commit) := by
  unfold commitRequest
  rw [if_neg (commit_fieldsOk valid high), extent]
  dsimp only
  rw [if_neg nonzero, found]
  exact if_pos foreign

theorem extentCheck_empty (empty : q.length = 0) : s.extentCheck q = none := if_pos empty

theorem extentCheck_noVolume (some : q.length ≠ 0) (volume : q.volume = 0) :
    s.extentCheck q = .some .badField := (if_neg some).trans (if_pos volume)

theorem extentCheck_unknown (some : q.length ≠ 0) (volume : q.volume ≠ 0)
    (unknown : s.findVol q.volume = none) : s.extentCheck q = .some .noSuch := by
  unfold State.extentCheck
  rw [if_neg some, if_neg volume, unknown]

theorem extentCheck_found (some : q.length ≠ 0) (volume : q.volume ≠ 0)
    (found : s.findVol q.volume = .some (i, v)) :
    s.extentCheck q = if v.size < q.start + q.length then .some .badField else none := by
  unfold State.extentCheck
  rw [if_neg some, if_neg volume, found]
  simp only [reachesPast_iff]

theorem extentCheck_passes (inside : q.length = 0 ∨ (q.volume ≠ 0 ∧ ∃ i v,
    s.findVol q.volume = some (i, v) ∧ q.start + q.length ≤ v.size)) : s.extentCheck q = none := by
  by_cases empty : q.length = 0
  · exact extentCheck_empty empty
  · obtain ⟨volume, i, v, found, fits⟩ := inside.resolve_left empty
    exact (extentCheck_found empty volume found).trans (if_neg (Nat.not_lt.mpr fits))

end Commit

/-! ### AMEND (R172) -/

section Amend

variable {q : AmendReq}

/-- The request names an override, a volume field, a snapshot's tag (R172). -/
def namesOverride (q : AmendReq) : Bool := q.table == 1 && q.field ≤ 1

def namesVolume (q : AmendReq) : Bool := q.table == 4 && 2 ≤ q.field && q.field ≤ 4

def namesSnapshot (q : AmendReq) : Bool := q.table == 5 && q.field == 5

/-- The checks of R172 that read the request alone. -/
def amendFormed (q : AmendReq) : Bool :=
  (namesOverride q || namesVolume q || namesSnapshot q) && q.condition ≤ 4 && q.action ≤ 1 &&
    (!namesOverride q || (q.key ≤ 4294967295 && !invalidOwner (BitVec.ofNat 32 q.key))) &&
    (!namesVolume q || q.key ≤ 7) && (!namesSnapshot q || q.key / 4294967296 != 0)

/-- The volume field with a code of 2 to 4 (R172). -/
def volumeField (field : Nat) : AmendField :=
  if field = 2 then .reserveLimit else if field = 3 then .autoExpire else .dupEnable

theorem amendValue_volumeField (v : Volume) (field : Nat) :
    v.amendValue (volumeField field) = if field = 2 then v.limit
      else if field = 3 then v.autoExpire.toNat else v.dupEnable.toNat := by
  unfold volumeField
  split
  · rfl
  · split <;> rfl

theorem volumeField_isEnable {field : Nat} (enable : 3 ≤ field) :
    (volumeField field).isEnable = true := by
  unfold volumeField
  rw [if_neg (by omega)]
  split <;> rfl

theorem namesOverride_iff : namesOverride q = true ↔ q.table = 1 ∧ q.field ≤ 1 := by
  simp [namesOverride]

theorem namesVolume_iff : namesVolume q = true ↔ q.table = 4 ∧ 2 ≤ q.field ∧ q.field ≤ 4 := by
  simp [namesVolume, and_assoc]

theorem namesSnapshot_iff : namesSnapshot q = true ↔ q.table = 5 ∧ q.field = 5 := by
  simp [namesSnapshot]

/-- What check 1 finds a field code to name. -/
theorem amendField_of (q : AmendReq) : AmendField.of q.table q.field =
    if namesOverride q then some (if q.field = 0 then .overrideSoft else .overrideHard)
    else if namesVolume q then some (volumeField q.field)
    else if namesSnapshot q then some .snapshotTag else none := by
  unfold AmendField.of
  split <;> rename_i table field
  case h_7 =>
    rw [if_neg, if_neg, if_neg]
    all_goals
      simp only [namesOverride_iff, namesVolume_iff, namesSnapshot_iff]
      grind
  all_goals simp [namesOverride, namesVolume, namesSnapshot, volumeField, table, field]

theorem eq_false_or_iff {b : Bool} {p : Prop} : (b = false ∨ p) ↔ (b = true → p) := by
  rw [← Bool.not_eq_true, imp_iff_not_or]

theorem amendFormed_iff : amendFormed q = true ↔
    (namesOverride q = true ∨ namesVolume q = true ∨ namesSnapshot q = true) ∧ q.condition ≤ 4 ∧
      q.action ≤ 1 ∧ (namesOverride q = true → q.key ≤ 4294967295 ∧
        invalidOwner (BitVec.ofNat 32 q.key) = false) ∧ (namesVolume q = true → q.key ≤ 7) ∧
      (namesSnapshot q = true → q.key / 4294967296 ≠ 0) := by
  simp [amendFormed, and_assoc, or_assoc, eq_false_or_iff, -Nat.div_eq_zero_iff]

theorem amendRequest_unformed (outside : 4 < q.condition ∨ 1 < q.action) :
    amendRequest tag q s = s.answer 21 tag .badField (.amend) := if_pos outside

section Dispatch

variable (condition : q.condition ≤ 4) (action : q.action ≤ 1)

include condition action

theorem amendRequest_unnamed (override : namesOverride q = false) (volume : namesVolume q = false)
    (snapshot : namesSnapshot q = false) :
    amendRequest tag q s = s.answer 21 tag .badField (.amend) := by
  unfold amendRequest
  rw [if_neg (by omega), amendField_of, override, volume, snapshot]
  rfl

theorem amendRequest_override (names : namesOverride q = true) :
    amendRequest tag q s = amendOwner tag q (q.field == 0) s := by
  unfold amendRequest
  rw [if_neg (by omega), amendField_of, names]
  by_cases soft : q.field = 0
  · simp [soft]
  · simp [soft, beq_eq_false_iff_ne.mpr soft]

theorem amendFormed_override (names : namesOverride q = true) :
    amendFormed q = (q.key ≤ 4294967295 && !invalidOwner (BitVec.ofNat 32 q.key)) := by
  obtain ⟨table, -⟩ := namesOverride_iff.mp names
  simp [amendFormed, names, namesVolume, namesSnapshot, table, condition, action]

theorem amendFormed_volume (names : namesVolume q = true) :
    amendFormed q = decide (q.key ≤ 7) := by
  obtain ⟨table, -⟩ := namesVolume_iff.mp names
  simp [amendFormed, names, namesOverride, namesSnapshot, table, condition, action]

theorem amendFormed_snapshot (names : namesSnapshot q = true) :
    amendFormed q = (q.key / 4294967296 != 0) := by
  obtain ⟨table, -⟩ := namesSnapshot_iff.mp names
  simp [amendFormed, names, namesOverride, namesVolume, table, condition, action]

theorem amendRequest_volume (names : namesVolume q = true) :
    amendRequest tag q s = amendVolume tag q (volumeField q.field) s := by
  obtain ⟨table, -⟩ := namesVolume_iff.mp names
  have override : namesOverride q = false := by simp [namesOverride, table]
  unfold amendRequest
  rw [if_neg (by omega), amendField_of, override, names]
  unfold volumeField
  by_cases limit : q.field = 2
  · simp [limit]
  · by_cases auto : q.field = 3 <;> simp [limit, auto]

theorem amendRequest_snapshot (names : namesSnapshot q = true) :
    amendRequest tag q s = amendSnapshot tag q s := by
  obtain ⟨table, field⟩ := namesSnapshot_iff.mp names
  unfold amendRequest
  rw [if_neg (by omega), table, field]
  rfl

end Dispatch

theorem amendOwner_badKey {soft : Bool}
    (bad : invalidOwner (BitVec.ofNat 32 q.key) = true ∨ 4294967295 < q.key) :
    amendOwner tag q soft s = s.answer 21 tag .badField (.amend) := if_pos bad

theorem amendOwner_unknown {soft : Bool} (valid : invalidOwner (BitVec.ofNat 32 q.key) = false)
    (key : q.key ≤ 4294967295) (unknown : s.findOwner (BitVec.ofNat 32 q.key) = none) :
    amendOwner tag q soft s = s.answer 21 tag .noSuch (.amend) := by
  unfold amendOwner
  dsimp only
  rw [if_neg (by simp [valid, key]), unknown]
  rfl

section Volume

variable {f : AmendField}

theorem amendVolume_badKey (high : 7 < q.key) :
    amendVolume tag q f s = s.answer 21 tag .badField (.amend) :=
  dif_neg (Nat.not_lt.mpr high)

theorem amendVolume_removes (key : q.key ≤ 7) (remove : q.action = 1) :
    amendVolume tag q f s = s.answer 21 tag .badField (.amend) := by
  unfold amendVolume
  rw [dif_pos (Nat.lt_succ_of_le key), if_pos (by simp [AmendReq.removes, remove])]
  rfl

section Set

variable (key : q.key = i.val) (set : q.action = 0)

include key set

theorem amendVolume_unknown (unknown : s.vol i = none) :
    amendVolume tag q f s = s.answer 21 tag .noSuch (.amend) := by
  have slot : (⟨q.key, key ▸ i.isLt⟩ : Fin 8) = i := Fin.ext key
  unfold amendVolume
  rw [dif_pos (key ▸ i.isLt), if_neg (by simp [AmendReq.removes, set])]
  simp only [slot, unknown]
  rfl

theorem amendVolume_fails (found : s.vol i = some v)
    (fails : q.conditionHolds (BitVec.ofNat 32 (v.amendValue f)) = false) :
    amendVolume tag q f s = s.answer 21 tag .mismatch (.amend) := by
  have slot : (⟨q.key, key ▸ i.isLt⟩ : Fin 8) = i := Fin.ext key
  unfold amendVolume
  rw [dif_pos (key ▸ i.isLt), if_neg (by simp [AmendReq.removes, set])]
  simp only [slot, found, fails]
  rfl

/-- An enable takes 0 or 1 only (R172). -/
theorem amendVolume_enable (found : s.vol i = some v) (enable : f.isEnable = true)
    (holds : q.conditionHolds (BitVec.ofNat 32 (v.amendValue f)) = true)
    (high : 1 < (q.merged (BitVec.ofNat 32 (v.amendValue f))).toNat) :
    amendVolume tag q f s = s.answer 21 tag .badField (.amend) := by
  have slot : (⟨q.key, key ▸ i.isLt⟩ : Fin 8) = i := Fin.ext key
  unfold amendVolume
  rw [dif_pos (key ▸ i.isLt), if_neg (by simp [AmendReq.removes, set])]
  simp only [slot, found]
  exact (if_pos holds).trans (if_pos ⟨enable, high⟩)

end Set

end Volume

theorem amendSnapshot_badField (bad : q.key / 4294967296 = 0 ∨ q.action = 1) :
    amendSnapshot tag q s = s.answer 21 tag .badField (.amend) :=
  if_pos (bad.imp_right fun remove => by simp [AmendReq.removes, remove])

section Tag

variable (volume : q.key / 4294967296 ≠ 0) (set : q.action = 0)

include volume set

theorem amendSnapshot_set : ¬(q.key / 2 ^ 32 = 0 ∨ q.removes = true) := by
  rintro (zero | removes)
  · exact volume zero
  · simp [AmendReq.removes, set] at removes

theorem amendSnapshot_noSuch (unknown : (s.findVol (q.key / 4294967296)).all (fun p =>
      (s.findSnap p.1 (q.key % 4294967296)).isNone) = true) :
    amendSnapshot tag q s = s.answer 21 tag .noSuch (.amend) := by
  unfold amendSnapshot
  rw [if_neg (amendSnapshot_set volume set)]
  rw [show (2 : Nat) ^ 32 = 4294967296 from rfl]
  cases found : s.findVol (q.key / 4294967296) with
  | none => rfl
  | some p =>
    rw [found] at unknown
    dsimp only
    rw [Option.isNone_iff_eq_none.mp unknown]
    rfl

theorem amendSnapshot_fails (found : s.findVol (q.key / 4294967296) = some (i, v))
    (snap : s.findSnap i (q.key % 4294967296) = some x)
    (fails : q.conditionHolds (BitVec.ofNat 32 x.tag) = false) :
    amendSnapshot tag q s = s.answer 21 tag .mismatch (.amend) := by
  unfold amendSnapshot
  rw [if_neg (amendSnapshot_set volume set)]
  simp only [show (2 : Nat) ^ 32 = 4294967296 from rfl, found, snap, fails]
  rfl

end Tag

/-- A request out of form is refused, whatever it names (R172). -/
theorem amendRequest_malformed (malformed : amendFormed q = false) :
    amendRequest tag q s = s.answer 21 tag .badField (.amend) := by
  by_cases outside : 4 < q.condition ∨ 1 < q.action
  · exact amendRequest_unformed outside
  have condition : q.condition ≤ 4 := by omega
  have action : q.action ≤ 1 := by omega
  cases override : namesOverride q with
  | true =>
    rw [amendFormed_override condition action override] at malformed
    rw [amendRequest_override condition action override]
    refine amendOwner_badKey ?_
    simpa [← imp_iff_or_not, imp_iff_not_or, or_comm] using malformed
  | false =>
  cases volume : namesVolume q with
  | true =>
    rw [amendFormed_volume condition action volume] at malformed
    rw [amendRequest_volume condition action volume]
    exact amendVolume_badKey (by simpa using malformed)
  | false =>
  cases snapshot : namesSnapshot q with
  | true =>
    rw [amendFormed_snapshot condition action snapshot] at malformed
    rw [amendRequest_snapshot condition action snapshot]
    exact amendSnapshot_badField (.inl (bne_eq_false_iff_eq.mp malformed))
  | false => exact amendRequest_unnamed condition action override volume snapshot

section Formed

variable (form : amendFormed q = true)

include form

theorem amendRequest_ofOverride (names : namesOverride q = true) :
    amendRequest tag q s = amendOwner tag q (q.field == 0) s := by
  obtain ⟨-, condition, action, -⟩ := amendFormed_iff.mp form
  exact amendRequest_override condition action names

theorem amendRequest_ofVolume (names : namesVolume q = true) :
    amendRequest tag q s = amendVolume tag q (volumeField q.field) s := by
  obtain ⟨-, condition, action, -⟩ := amendFormed_iff.mp form
  exact amendRequest_volume condition action names

theorem amendRequest_ofSnapshot (names : namesSnapshot q = true) :
    amendRequest tag q s = amendSnapshot tag q s := by
  obtain ⟨-, condition, action, -⟩ := amendFormed_iff.mp form
  exact amendRequest_snapshot condition action names

/-- Only an override can be removed (R172). -/
theorem amendRequest_removes (other : namesOverride q = false) (remove : q.action = 1) :
    amendRequest tag q s = s.answer 21 tag .badField (.amend) := by
  obtain ⟨names, -, -, -, volumeKey, -⟩ := amendFormed_iff.mp form
  rcases names.resolve_left (by simp [other]) with volume | snapshot
  · exact (amendRequest_ofVolume form volume).trans (amendVolume_removes (volumeKey volume) remove)
  · exact (amendRequest_ofSnapshot form snapshot).trans (amendSnapshot_badField (.inr remove))

theorem amendRequest_unknownOwner (names : namesOverride q = true)
    (unknown : s.findOwner (BitVec.ofNat 32 q.key) = none) :
    amendRequest tag q s = s.answer 21 tag .noSuch (.amend) := by
  obtain ⟨-, -, -, ownerKey, -⟩ := amendFormed_iff.mp form
  obtain ⟨key, valid⟩ := ownerKey names
  exact (amendRequest_ofOverride form names).trans (amendOwner_unknown valid key unknown)

theorem amendRequest_ownerFails (names : namesOverride q = true)
    (found : s.findOwner (BitVec.ofNat 32 q.key) = some o)
    (fails : q.conditionHolds (BitVec.ofNat 32 ((o.override.map fun l =>
      if q.field = 0 then l.soft else l.hard).getD 4294967295)) = false) :
    amendRequest tag q s = s.answer 21 tag .mismatch (.amend) := by
  obtain ⟨-, -, -, ownerKey, -⟩ := amendFormed_iff.mp form
  obtain ⟨key, valid⟩ := ownerKey names
  have old : overrideValue (q.field == 0) o.override = (o.override.map fun l =>
      if q.field = 0 then l.soft else l.hard).getD 4294967295 := by
    unfold overrideValue
    cases o.override with
    | none => rfl
    | some l => simp
  exact (amendRequest_ofOverride form names).trans (amendOwner_mismatch valid key found (old ▸ fails))

theorem amendRequest_unknownSnapshot (names : namesSnapshot q = true) (set : q.action = 0)
    (unknown : (s.findVol (q.key / 4294967296)).all (fun p =>
      (s.findSnap p.1 (q.key % 4294967296)).isNone) = true) :
    amendRequest tag q s = s.answer 21 tag .noSuch (.amend) := by
  obtain ⟨-, -, -, -, -, snapshotKey⟩ := amendFormed_iff.mp form
  exact (amendRequest_ofSnapshot form names).trans
    (amendSnapshot_noSuch (snapshotKey names) set unknown)

theorem amendRequest_snapshotFails (names : namesSnapshot q = true) (set : q.action = 0)
    (found : s.findVol (q.key / 4294967296) = some (i, v))
    (snap : s.findSnap i (q.key % 4294967296) = some x)
    (fails : q.conditionHolds (BitVec.ofNat 32 x.tag) = false) :
    amendRequest tag q s = s.answer 21 tag .mismatch (.amend) := by
  obtain ⟨-, -, -, -, -, snapshotKey⟩ := amendFormed_iff.mp form
  exact (amendRequest_ofSnapshot form names).trans
    (amendSnapshot_fails (snapshotKey names) set found snap fails)

theorem amendRequest_unknownVolume (names : namesVolume q = true) (set : q.action = 0)
    (key : q.key = i.val) (unknown : s.vol i = none) :
    amendRequest tag q s = s.answer 21 tag .noSuch (.amend) :=
  (amendRequest_ofVolume form names).trans (amendVolume_unknown key set unknown)

theorem amendRequest_volumeFails (names : namesVolume q = true) (set : q.action = 0)
    (key : q.key = i.val) (found : s.vol i = some v)
    (fails : q.conditionHolds (BitVec.ofNat 32 (v.amendValue (volumeField q.field))) = false) :
    amendRequest tag q s = s.answer 21 tag .mismatch (.amend) :=
  (amendRequest_ofVolume form names).trans (amendVolume_fails key set found fails)

theorem amendRequest_enable (names : namesVolume q = true) (set : q.action = 0)
    (key : q.key = i.val) (found : s.vol i = some v) (enable : 3 ≤ q.field)
    (holds : q.conditionHolds (BitVec.ofNat 32 (v.amendValue (volumeField q.field))) = true)
    (high : 1 < (q.merged (BitVec.ofNat 32 (v.amendValue (volumeField q.field)))).toNat) :
    amendRequest tag q s = s.answer 21 tag .badField (.amend) :=
  (amendRequest_ofVolume form names).trans
    (amendVolume_enable key set found (volumeField_isEnable enable) holds high)

end Formed

end Amend

/-! ### LOAD_VOLUME (R184) -/

section Load

theorem loadVolume_fieldsBad {q : LoadVolumeReq} (bad : q.volume = 0 ∨ q.size = 0 ∨ q.openEpoch = 0 ∨
      3 < q.profile ∨ 1 < q.autoExpire ∨ 1 < q.dupEnable ∨ 1 < q.basePresent ∨
      (q.basePresent = 1 ∧ (q.base = 0 ∨ q.openEpoch ≤ q.base)) ∨
      (s.findVol q.volume).isSome = true) :
    loadVolumeRequest tag q s = s.answer 24 tag .badField (.loadVolume) := by
  refine if_pos ?_
  by_cases known : (s.findVol q.volume).isSome = true
  · exact .inr known
  refine .inl (Bool.not_eq_true' _ ▸ Bool.eq_false_iff.mpr fun fields => ?_)
  simp only [LoadVolumeReq.fieldsOk, bne_iff_ne, Bool.and_eq_true, Bool.or_eq_true, beq_iff_eq,
    decide_eq_true_eq] at fields
  simp only [known, Bool.false_eq_true, or_false] at bad
  omega

theorem loadVolumeRequest_full {q : LoadVolumeReq} (fields : q.fieldsOk = true)
    (new : s.findVol q.volume = none) (full : ∀ i, (s.vol i).isSome = true) :
    loadVolumeRequest tag q s = s.answer 24 tag .full (.loadVolume) := by
  have none : slots8.find? (fun i => (s.vol i).isNone) = none :=
    List.find?_eq_none.mpr fun i _ => by simpa [Option.isSome_iff_ne_none] using full i
  unfold loadVolumeRequest
  rw [if_neg (by simp [fields, new]), none]

/-! ### LOAD_SNAPSHOT (R87, R185) -/

variable {q : LoadSnapshotReq}

theorem loadListOk_eq (epoch retained : Nat) (l : List Bucket) : loadListOk epoch retained l =
    (birthsAscend l && l.all (fun b => decide (b.birth ≤ epoch ∧ b.blocks ≠ 0)) &&
      decide (bucketTotal l + retained ≤ 4294967295)) := by
  simp only [loadListOk, maxCount, Bool.decide_and, bne, decide_not]
  rfl

theorem loadSnapshotRequest_badField
    (bad : SnapKind.ofCode (q.kindHold % 128) = none ∨ q.volume = 0 ∨ q.epoch = 0) :
    loadSnapshotRequest tag q s = s.answer 25 tag .badField (.loadSnapshot) := by
  unfold loadSnapshotRequest
  cases kind : q.kind with
  | none => rfl
  | some k => exact if_pos (bad.resolve_left fun none => by cases kind.symm.trans none)

section Fields

variable (kind : (SnapKind.ofCode (q.kindHold % 128)).isSome = true) (volume : q.volume ≠ 0)
  (epoch : q.epoch ≠ 0)

include kind volume epoch

theorem loadSnapshotRequest_noSuch (unknown : s.findVol q.volume = none) :
    loadSnapshotRequest tag q s = s.answer 25 tag .noSuch (.loadSnapshot) := by
  obtain ⟨k, ofKind⟩ := Option.isSome_iff_exists.mp kind
  unfold loadSnapshotRequest
  rw [show q.kind = some k from ofKind]
  dsimp only
  rw [if_neg (by simp [volume, epoch]), unknown]

theorem loadSnapshotRequest_unfit (found : s.findVol q.volume = some (i, v))
    (unfit : v.openEpoch ≤ q.epoch ∨ (∃ n, s.newest i = some n ∧ q.epoch ≤ n) ∨
      loadListOk q.epoch v.retained q.buckets = false) :
    loadSnapshotRequest tag q s = s.answer 25 tag .badField (.loadSnapshot) := by
  obtain ⟨k, ofKind⟩ := Option.isSome_iff_exists.mp kind
  unfold loadSnapshotRequest
  rw [show q.kind = some k from ofKind]
  dsimp only
  rw [if_neg (by simp [volume, epoch]), found]
  refine if_pos ?_
  rcases unfit with open_ | ⟨n, newest, above⟩ | list
  · exact .inl open_
  · exact .inr (.inl (by rw [newest]; exact above))
  · exact .inr (.inr (by rw [list]; rfl))

theorem loadSnapshotRequest_full (found : s.findVol q.volume = some (i, v))
    (below : q.epoch < v.openEpoch) (newest : ∀ n, s.newest i = some n → n < q.epoch)
    (list : loadListOk q.epoch v.retained q.buckets = true) (full : 256 ≤ s.cat.snaps.length) :
    loadSnapshotRequest tag q s = s.answer 25 tag .full (.loadSnapshot) := by
  obtain ⟨k, ofKind⟩ := Option.isSome_iff_exists.mp kind
  have newer : (s.newest i).getD 0 < q.epoch := by
    cases h : s.newest i with
    | none => exact Nat.pos_of_ne_zero epoch
    | some n => exact newest n h
  unfold loadSnapshotRequest
  rw [show q.kind = some k from ofKind]
  dsimp only
  rw [if_neg (by simp [volume, epoch]), found]
  dsimp only
  rw [if_neg (by simp [list, below, newer])]
  exact if_pos full

end Fields

/-! ### LOAD_OWNER (R186) -/

theorem loadOwnerRequest_badField {q : LoadOwnerReq}
    (bad : invalidOwner q.owner = true ∨ 1 < q.overridePresent) :
    loadOwnerRequest tag q s = s.answer 26 tag .badField (.loadOwner) := if_pos bad

theorem loadOwnerRequest_untracked {q : LoadOwnerReq} (valid : invalidOwner q.owner = false)
    (present : q.overridePresent ≤ 1) (untracked : s.classOf q.owner = none) :
    loadOwnerRequest tag q s = s.answer 26 tag .untracked (.loadOwner) := by
  unfold loadOwnerRequest
  rw [if_neg (by simp [valid, present]), untracked]

end Load

end Sys2Proof.Proofs

/-! PROOFS. RELEASE: the insertion rule, the quota side, the retention side and what a RELEASE starts
(R41, R42, R75, R76, R81, R149): settles O15. -/

namespace Sys2Proof.Proofs

open Sys2Proof.Machine Sys2Proof.Safety

variable {s t u w : State} {o : Owner} {id : OwnerId} {i : Fin 8} {v : Volume} {x : Snapshot}
  {k : EventKind} {b : Bucket} {l : List Bucket} {n c birth tag : Nat} {q : ReleaseReq} {st : Status}

/-! ### The insertion rule (R76) -/

/-- A retained list that ascends by birth, with the blocks of a bucket joined. -/
def joinedList (b : Bucket) (l : List Bucket) : List Bucket :=
  if l.any (·.birth == b.birth) then
    l.map fun x => if x.birth = b.birth then { x with blocks := x.blocks + b.blocks } else x
  else l.filter (·.birth < b.birth) ++ b :: l.filter (b.birth < ·.birth)

theorem joinedList_above (above : ∀ y ∈ l, b.birth < y.birth) : joinedList b l = b :: l := by
  have absent : l.any (·.birth == b.birth) = false :=
    List.any_eq_false.mpr fun y mem => by simpa using (above y mem).ne'
  have none : l.filter (·.birth < b.birth) = [] :=
    List.filter_eq_nil_iff.mpr fun y mem => by simpa using (above y mem).le
  have all : l.filter (b.birth < ·.birth) = l :=
    List.filter_eq_self.mpr fun y mem => decide_eq_true (above y mem)
  unfold joinedList
  rw [if_neg (by simp [absent]), none, all]
  rfl

theorem joinedList_same {x : Bucket} (same : x.birth = b.birth) (above : ∀ y ∈ l, b.birth < y.birth) :
    joinedList b (x :: l) = { x with blocks := x.blocks + b.blocks } :: l := by
  have others : (l.map fun x =>
      if x.birth = b.birth then { x with blocks := x.blocks + b.blocks } else x) = l :=
    (List.map_congr_left fun y mem => if_neg (above y mem).ne').trans (List.map_id' l)
  unfold joinedList
  rw [if_pos (by simp [same]), List.map_cons, if_pos same, others]

theorem joinedList_below {x : Bucket} (below : x.birth < b.birth) :
    joinedList b (x :: l) = x :: joinedList b l := by
  unfold joinedList
  rw [List.any_cons, beq_eq_false_iff_ne.mpr below.ne, Bool.false_or, List.map_cons, if_neg below.ne,
    List.filter_cons_of_pos (by simpa using below), List.filter_cons_of_neg (by simpa using below.le)]
  split <;> rfl

theorem addBucket_eq (ascends : l.Pairwise (fun x y => x.birth < y.birth)) :
    addBucket b l = joinedList b l := by
  induction l with
  | nil => rfl
  | cons x xs ih =>
    obtain ⟨first, rest⟩ := List.pairwise_cons.mp ascends
    unfold addBucket
    split
    · rename_i same
      exact (joinedList_same same.symm fun y mem => same ▸ first y mem).symm
    split
    · rename_i less
      refine (joinedList_above fun y mem => ?_).symm
      rcases List.mem_cons.mp mem with rfl | mem
      · exact less
      · exact less.trans (first y mem)
    · rw [joinedList_below (by omega), ih rest]

theorem insertBucket_short (ascends : l.Pairwise (fun x y => x.birth < y.birth))
    (short : (joinedList b l).length ≤ 8) : insertBucket b l = (joinedList b l, false) := by
  unfold insertBucket
  rw [addBucket_eq ascends]
  split
  · rename_i list
    rw [list] at short ⊢
    exact if_neg (Nat.not_lt.mpr short)
  · rfl

theorem insertBucket_long {x y : Bucket} {rest : List Bucket}
    (ascends : l.Pairwise (fun x y => x.birth < y.birth)) (list : joinedList b l = x :: y :: rest)
    (long : 8 < (joinedList b l).length) :
    insertBucket b l = ({ birth := x.birth, blocks := x.blocks + y.blocks } :: rest, true) := by
  unfold insertBucket
  rw [addBucket_eq ascends, list]
  rw [list] at long
  exact if_pos long

/-! ### The quota side (R42) -/

theorem releaseQuota_untracked (untracked : s.findOwner id = none) : s.releaseQuota id n = s := by
  unfold State.releaseQuota
  rw [untracked]

/-- The owner's local used falls, floored at 0 with USAGE_UNDERFLOW. -/
theorem releaseQuota_leaves (found : s.findOwner id = some o) :
    let t := s.releaseQuota id n
    t.findOwner id = some (s.reevaluate { o with used := o.used - n, lastCharge := s.time.uptime }) ∧
      OthersKept id s t ∧ (o.used < n → Raised s t .usageUnderflow id.toNat) ∧
      ∀ k : EventKind, k.index ≠ EventKind.index .usageUnderflow → SameEvent k s t := by
  intro t
  let f : Owner → Owner := fun o => { o with used := o.used - n, lastCharge := s.now }
  let touched := s.touchOwner id f
  let told := if o.used < n then touched.raise .usageUnderflow id.toNat else touched
  have run : t = told.usedChanged id o.used := by
    change s.releaseQuota id n = _
    unfold State.releaseQuota
    rw [found]
  have touching : ChangesOnly [.owners] s touched := touchOwner_changes ..
  have telling : ChangesOnly [.port] touched told := .ite (fun _ => raise_changes ..) fun _ => .refl ..
  have noting : ChangesOnly [.link] told t := run ▸ usedChanged_changes ..
  have after : ChangesOnly [.link, .port] touched t :=
    (within (by decide) telling).trans (within (by decide) noting)
  have owners := findOwner_of_changes (by decide) after
  refine ⟨(owners _).trans (findOwner_touchOwner s found rfl),
    fun y other => (owners y).trans (touchOwner_othersKept s (f := f) (fun _ => rfl) y other),
    fun under => ?_, fun k other => ?_⟩
  · have raise : told = touched.raise .usageUnderflow id.toNat := if_pos under
    exact raised_between (.of_changes (by decide) touching) (raise ▸ raise_raised ..)
      (.of_changes (by decide) noting)
  · have quiet : SameEvent k touched told := .ite (fun _ => sameEvent_raise other _) fun _ => .refl _
    exact (SameEvent.of_changes (by decide) touching).trans
      (quiet.trans (.of_changes (by decide) noting))

theorem releaseQuota_side (s : State) (id : OwnerId) (n : Nat) :
    let t := s.releaseQuota id n
    t.usedOf id = ((s.findOwner id).map (·.used)).getD 0 - n ∧
      (s.findOwner id = none → t.owners = s.owners) ∧
      (∀ o, s.findOwner id = some o →
        t.findOwner id = some (s.reevaluate
          { o with used := o.used - n, lastCharge := s.time.uptime }) ∧
        (o.used < n → Raised s t .usageUnderflow id.toNat)) ∧
      OthersKept id s t ∧
      ∀ k : EventKind, k.index ≠ EventKind.index .usageUnderflow → SameEvent k s t := by
  intro t
  cases record : s.findOwner id with
  | none =>
    have run : t = s := releaseQuota_untracked record
    rw [run]
    refine ⟨?_, fun _ => rfl, fun o found => (by cases found), fun _ _ => rfl, fun k _ => .refl s⟩
    unfold State.usedOf
    rw [record]
    exact (Nat.zero_sub n).symm
  | some o =>
    obtain ⟨stands, others, under, quiet⟩ := releaseQuota_leaves (n := n) record
    refine ⟨(usedOf_of_found stands).trans (reevaluate_used ..), fun none => (by cases none), ?_,
      others, quiet⟩
    intro p found
    cases found
    exact ⟨stands, under⟩

/-! ### The retention side (R75) -/

/-- The blocks of a RELEASE that the newest snapshot retains. -/
def retainedBlocks (s : State) (i : Fin 8) (v : Volume) (birth c : Nat) : Nat :=
  (s.newest i).elim 0 fun n => if n < birth then 0 else min c (4294967295 - v.retained)

/-- What the retention side does to the snapshots. -/
def Retains (s t : State) (i : Fin 8) (v : Volume) (birth kept : Nat) : Prop :=
  (kept = 0 → t.cat.snaps = s.cat.snaps) ∧
  ∀ n x, 0 < kept → s.newest i = some n → s.findSnap i n = some x →
    let added := insertBucket { birth, blocks := kept } x.buckets
    (t.cat.snaps = s.cat.snaps.map fun y =>
      if y.slot = i ∧ y.epoch = n then { y with buckets := added.1 } else y) ∧
    (added.2 = true → Raised s t .bucketMerge v.id)

theorem releaseRetention_none (none : retainedBlocks s i v birth c = 0) :
    s.releaseRetention i v birth c = (c, 0, s) := by
  unfold retainedBlocks at none
  unfold State.releaseRetention
  cases newest : s.newest i with
  | none => rfl
  | some n =>
    rw [newest] at none
    dsimp only [Option.elim] at none ⊢
    by_cases out : c = 0 ∨ n < birth
    · exact if_pos out
    · rw [if_neg fun older => out (.inr older)] at none
      exact (if_neg out).trans (if_pos none)

theorem releaseRetention_some (some : 0 < retainedBlocks s i v birth c) :
    ∃ n, s.newest i = .some n ∧ s.releaseRetention i v birth c =
      let kept := retainedBlocks s i v birth c
      (c - kept, kept, (s.retainBlocks i n v.id { birth, blocks := kept }).modifyVol i fun w =>
        { w with retained := w.retained + kept }) := by
  cases newest : s.newest i with
  | none => simp [retainedBlocks, newest] at some
  | some n =>
    refine ⟨n, rfl, ?_⟩
    have reaches : ¬n < birth := fun older => by simp [retainedBlocks, newest, older] at some
    have kept : retainedBlocks s i v birth c = min c (4294967295 - v.retained) := by
      simp [retainedBlocks, newest, reaches]
    rw [kept] at some ⊢
    unfold State.releaseRetention
    rw [newest]
    dsimp only
    rw [if_neg (by omega), if_neg some.ne']

theorem releaseRetention_figures (s : State) (i : Fin 8) (v : Volume) (birth c : Nat) :
    (s.releaseRetention i v birth c).1 = c - retainedBlocks s i v birth c ∧
      (s.releaseRetention i v birth c).2.1 = retainedBlocks s i v birth c := by
  by_cases none : retainedBlocks s i v birth c = 0
  · rw [releaseRetention_none none, none]
    exact ⟨rfl, rfl⟩
  · obtain ⟨n, -, run⟩ := releaseRetention_some (Nat.pos_of_ne_zero none)
    rw [run]
    exact ⟨rfl, rfl⟩

theorem retainBlocks_found (found : s.findSnap i n = some x) :
    s.retainBlocks i n c b =
      let kept := s.modifySnap i n fun y => { y with buckets := (insertBucket b x.buckets).1 }
      if (insertBucket b x.buckets).2 then kept.raise .bucketMerge c else kept := by
  unfold State.retainBlocks
  rw [found]

/-- Blocks retained leave the volumes, the pool and every other kind of event. -/
theorem retainBlocks_leaves (s : State) (i : Fin 8) (n c : Nat) (b : Bucket) :
    (s.retainBlocks i n c b).vol = s.vol ∧
      ∀ k : EventKind, k.index ≠ EventKind.index .bucketMerge →
        SameEvent k s (s.retainBlocks i n c b) := by
  unfold State.retainBlocks
  split
  · exact ⟨rfl, fun _ _ => .refl s⟩
  · dsimp only
    split
    · exact ⟨rfl, fun k other => sameEvent_raise (s := s.modifySnap ..) other _⟩
    · exact ⟨rfl, fun _ _ => rfl⟩

theorem findVol_id {volume : Nat} (found : s.findVol volume = some (i, v)) : v.id = volume := by
  unfold State.findVol at found
  obtain ⟨j, -, here⟩ := List.exists_of_findSome?_eq_some found
  split at here
  · split at here
    · rename_i same
      cases here
      exact same
    · cases here
  · cases here

/-- A volume that a request names, its record written under the same ID. -/
theorem findVol_putVol {volume : Nat} {z : Volume} (found : s.findVol volume = some (i, v))
    (same : z.id = v.id) : (s.putVol i (some z)).findVol volume = some (i, z) := by
  have ofId := findVol_id found
  have stands := findVol_some found
  unfold State.findVol at found ⊢
  generalize slots8 = slots at found ⊢
  induction slots with
  | nil => cases found
  | cons j js ih =>
    rw [List.findSome?_cons] at found ⊢
    by_cases here : j = i
    · rw [here, vol_putVol_self]
      simp [same, ofId]
    · rw [vol_putVol_other s here]
      cases first : s.vol j with
      | none =>
        rw [first] at found
        exact ih found
      | some y =>
        rw [first] at found
        dsimp only at found ⊢
        by_cases named : y.id = volume
        · rw [if_pos named] at found
          cases found
          exact absurd rfl here
        · rw [if_neg named] at found ⊢
          exact ih found

/-- The volume, the snapshots and the events behind the retention side. -/
theorem releaseRetention_leaves {volume : Nat} (found : s.findVol volume = some (i, v)) :
    let kept := retainedBlocks s i v birth c
    let r := s.releaseRetention i v birth c
    r.2.2.findVol volume = some (i, { v with retained := v.retained + kept }) ∧
      Retains s r.2.2 i v birth kept ∧
      ∀ k : EventKind, k.index ≠ EventKind.index .bucketMerge → SameEvent k s r.2.2 := by
  intro kept r
  by_cases none : kept = 0
  · have run : r = (c, 0, s) := releaseRetention_none none
    rw [run, none]
    exact ⟨found, ⟨fun _ => rfl, fun _ _ some => absurd some (by decide)⟩, fun _ _ => .refl s⟩
  · obtain ⟨n, newest, run⟩ := releaseRetention_some (Nat.pos_of_ne_zero none)
    let joined := s.retainBlocks i n v.id { birth, blocks := kept }
    obtain ⟨vols, quiet⟩ := retainBlocks_leaves s i n v.id { birth, blocks := kept }
    have named : joined.findVol volume = some (i, v) := (findVol_of_vol vols _).trans found
    have wrote : joined.modifyVol i (fun w => { w with retained := w.retained + kept }) =
        joined.putVol i (some { v with retained := v.retained + kept }) := by
      unfold State.modifyVol
      rw [findVol_some named]
    rw [show r = (c - kept, kept, joined.putVol i (some { v with retained := v.retained + kept }))
      from wrote ▸ run]
    refine ⟨findVol_putVol named rfl, ⟨fun zero => absurd zero none, ?_⟩, quiet⟩
    intro m x _ newest' snap
    cases newest.symm.trans newest'
    intro added
    have ran : joined = _ := retainBlocks_found snap
    constructor
    · rw [ran]
      dsimp only
      split <;> rfl
    · intro merged
      have raise := ran.trans (if_pos merged)
      rw [raise]
      exact raise_raised (s := s.modifySnap ..) .bucketMerge v.id

/-! ### What a RELEASE starts (R81, R149) -/

theorem sameEvent_flushEvent (s : State) : SameEvent k s s.flushEvent := .of_events (events_flushEvent s)

theorem sameEvent_deletionStep (other : k.index ≠ EventKind.index .bucketMerge) (s : State) (i : Fin 8)
    (v : Volume) (x : Snapshot) : SameEvent k s (s.deletionStep i v x).2 := by
  unfold State.deletionStep
  refine SameEvent.trans ?_ (.of_changes (by decide) (modifyVol_changes ..))
  refine SameEvent.trans ?_ (.of_changes (by decide) (setCat_changes ..))
  exact foldl_keeps (P := fun u => SameEvent k s u) (fun u b same => same.trans
    ((retainBlocks_leaves ..).2 k other)) _ _ (.refl s)

/-- An evaluation raises BUCKET_MERGE and RESERVE_OVER only (R76, R82). -/
theorem sameEvent_evaluate (merge : k.index ≠ EventKind.index .bucketMerge)
    (reserve : k.index ≠ EventKind.index .reserveOver) (s : State) (i : Fin 8) :
    SameEvent k s (s.evaluate i) := by
  unfold State.evaluate
  generalize s.cat.snaps.length + 1 = rounds
  induction rounds generalizing s with
  | zero => exact .refl s
  | succ rounds ih =>
    unfold evaluateRounds
    split
    · exact .refl s
    refine .ite (fun _ => rfl) fun _ => ?_
    split
    · exact .ite (fun _ => rfl) fun _ => (sameEvent_raise (s := s.putVol i _) reserve _).trans
        (sameEvent_flushEvent _)
    · exact .ite (fun _ => (sameEvent_deletionStep merge ..).trans (.trans (t := State.notice _ _ _)
        rfl ((sameEvent_flushEvent _).trans (ih _)))) fun _ => rfl

/-- What follows the completion of a RELEASE: the evaluation and the issue pass. -/
def afterRelease (kept free : Nat) (i : Fin 8) (s : State) : State :=
  (if kept = 0 then s else s.evaluate i).issueIfFreed free

theorem afterRelease_grows (kept free : Nat) (i : Fin 8) (s : State) :
    Grows s (afterRelease kept free i s) := by
  have evaluated : Grows s (if kept = 0 then s else s.evaluate i) :=
    .ite (fun _ => .refl s) fun _ => evaluate_grows ..
  exact evaluated.trans (issueIfFreed_grows ..)

theorem sameEvent_afterRelease (merge : k.index ≠ EventKind.index .bucketMerge)
    (reserve : k.index ≠ EventKind.index .reserveOver) (kept free : Nat) (i : Fin 8) (s : State) :
    SameEvent k s (afterRelease kept free i s) :=
  (SameEvent.ite (fun _ => .refl s) fun _ => sameEvent_evaluate merge reserve s i).trans
    (sameEvent_issueIfFreed ..)

/-- The current list behind a RELEASE. -/
theorem afterRelease_vol (found : s.vol i = some v) (kept free : Nat) :
    ∃ w, (afterRelease kept free i s).vol i = some w ∧ w.current = v.current ∧
      w.fullScan = v.fullScan := by
  have evaluated : ∃ z, (if kept = 0 then s else s.evaluate i).vol i = some z ∧
      z.current = v.current ∧ z.fullScan = v.fullScan := by
    split
    · exact ⟨v, found, rfl, rfl⟩
    · obtain ⟨z, stands, same⟩ := evaluate_vol found i
      have ofCurrent := congrArg Volume.current same
      have ofScan := congrArg Volume.fullScan same
      exact ⟨z, stands, ofCurrent, ofScan⟩
  obtain ⟨z, stands, ofCurrent, ofScan⟩ := evaluated
  obtain ⟨w, final, current, scan, -⟩ := issueIfFreed_vol stands free
  exact ⟨w, final, current.trans ofCurrent, scan.trans ofScan⟩

theorem overLimit_within (limit : v.limit = 4294967295 ∨ v.retained ≤ v.limit) :
    v.overLimit = false := by
  rcases limit with off | below
  · simp [Volume.overLimit, maxCount, off]
  · simp [Volume.overLimit, below]

/-- A volume within its limit keeps its retained count and its snapshots (R82). -/
theorem afterRelease_within (found : s.vol i = some v) (within : v.overLimit = false)
    (kept free : Nat) :
    let t := afterRelease kept free i s
    t.cat.snaps = s.cat.snaps ∧ t.port.events = s.port.events ∧
      ∀ w, t.vol i = some w → w.retained = v.retained := by
  intro t
  have evaluated : ∃ z, ∃ u, (if kept = 0 then s else s.evaluate i) = u ∧ u.vol i = some z ∧
      z.retained = v.retained ∧ u.cat.snaps = s.cat.snaps ∧ u.port.events = s.port.events := by
    refine ⟨if kept = 0 then v else { v with expiryWaiting := false }, _, rfl, ?_⟩
    split
    · exact ⟨found, rfl, rfl, rfl⟩
    · rw [evaluate_within found within]
      exact ⟨vol_putVol_self .., rfl, rfl, rfl⟩
  obtain ⟨z, u, run, stands, retained, snaps, events⟩ := evaluated
  have ran : t = u.issueIfFreed free := congrArg (·.issueIfFreed free) run
  obtain ⟨sent, kept, -⟩ := issueIfFreed_keeps u free
  obtain ⟨y, final, -, -, same⟩ := issueIfFreed_vol stands free
  rw [ran]
  refine ⟨kept.trans snaps, sent.trans events, fun w here => ?_⟩
  cases final.symm.trans here
  exact same.trans retained

/-! ### A RELEASE that passes its checks (R41) -/

/-- What a RELEASE does behind its quota side. -/
def releaseRest (tag : Nat) (q : ReleaseReq) (i : Fin 8) (v : Volume) (st : Status) (s : State) :
    State :=
  let r := s.releaseRetention i v q.birth q.blocks
  let a := r.2.2.appendExtent q.volume q.start q.length
  afterRelease r.2.1 r.2.2.poolFree i (a.answer 5 tag st (.release (a.usedOf q.owner) r.1 r.2.1))

theorem releaseRequest_passes (valid : invalidOwner q.owner = false) (volume : q.volume ≠ 0)
    (high : q.blocks ≤ 16777215) (found : s.findVol q.volume = some (i, v))
    (birth : q.birth ≤ v.openEpoch) (extent : q.start + q.length ≤ v.size) :
    releaseRequest tag q s = releaseRest tag q i v
      (if (s.findOwner q.owner).isSome then .ok else .untracked)
      (s.releaseQuota q.owner q.blocks) := by
  unfold releaseRequest
  rw [if_neg (release_fieldsOk valid volume high), found]
  refine if_neg ?_
  rintro (later | past)
  · exact absurd birth (Nat.not_le.mpr later)
  · exact absurd extent (Nat.not_le.mpr (reachesPast_iff.mp past))

/-- The steps around the retention side that leave the snapshots and the event. -/
theorem Retains.between {a b : State} {kept : Nat} (h : Retains a b i v birth kept)
    (cat : a.cat = s.cat) (before : SameEvent .bucketMerge s a)
    (snaps : t.cat.snaps = b.cat.snaps) (after : SameEvent .bucketMerge b t) :
    Retains s t i v birth kept := by
  obtain ⟨keeps, joins⟩ := h
  refine ⟨fun none => snaps.trans (cat ▸ keeps none), fun n x some newest found => ?_⟩
  have newest' : a.newest i = .some n := by
    unfold State.newest State.snapsOf at newest ⊢
    rwa [cat]
  have found' : a.findSnap i n = .some x := by
    unfold State.findSnap at found ⊢
    rwa [cat]
  obtain ⟨joined, merges⟩ := joins n x some newest' found'
  rw [cat] at joined
  exact ⟨snaps.trans joined, fun merged => raised_between before (merges merged) after⟩

theorem releaseRest_answered (quiet : Quiet s.dropHead u) :
    Answered s (releaseRest tag q i v st u) (reply 5 tag st (.release (u.usedOf q.owner)
      (q.blocks - retainedBlocks u i v q.birth q.blocks)
      (retainedBlocks u i v q.birth q.blocks))) := by
  let r := u.releaseRetention i v q.birth q.blocks
  let a := r.2.2.appendExtent q.volume q.start q.length
  obtain ⟨freed, retained⟩ := releaseRetention_figures u i v q.birth q.blocks
  have noted : ChangesOnly [.cat, .pool, .port] u a :=
    andThen (by decide) (within (by decide) (releaseRetention_changes ..)) (appendExtent_changes ..)
  have used : a.usedOf q.owner = u.usedOf q.owner := by
    unfold State.usedOf
    rw [findOwner_of_changes (by decide) noted]
  rw [← freed, ← retained, ← used]
  exact answered_of_quiet (w := a) (quiet.trans ((releaseRetention_quiet ..).trans
    (appendExtent_quiet ..))) (afterRelease_grows ..)

/-- The volume, its newest snapshot and the events behind a RELEASE. -/
theorem releaseRest_leaves (found : s.findVol q.volume = some (i, v)) :
    let kept := retainedBlocks s i v q.birth q.blocks
    let t := releaseRest tag q i v st s
    ∃ w, t.vol i = some w ∧ Noted s t v w { start := q.start, length := q.length } ∧
      SameEvent .usageUnderflow s t ∧
      ((v.limit = 4294967295 ∨ v.retained + kept ≤ v.limit) →
        w.retained = v.retained + kept ∧ Retains s t i v q.birth kept) := by
  intro kept t
  let r := s.releaseRetention i v q.birth q.blocks
  let a := r.2.2.appendExtent q.volume q.start q.length
  let told := a.answer 5 tag st (.release (a.usedOf q.owner) r.1 r.2.1)
  obtain ⟨named, retains, quiet⟩ := releaseRetention_leaves (birth := q.birth) (c := q.blocks) found
  obtain ⟨z, stands, same, noted, snaps⟩ := appendExtent_noted (start := q.start)
    (length := q.length) named
  have told_stands : told.vol i = some z :=
    (vol_of_changes (by decide) (answer_changes ..) i).trans stands
  obtain ⟨w, final, current, scan⟩ := afterRelease_vol told_stands r.2.1 r.2.2.poolFree
  have pool : r.2.2.poolFree = s.poolFree := (releaseRetention_changes ..).2 .pool (by decide)
  refine ⟨w, final, ?_, ?_, fun limit => ?_⟩
  · exact noted.between pool (quiet _ (by decide)) ((sameEvent_answer ..).trans
      (sameEvent_afterRelease (by decide) (by decide) ..)) ⟨rfl, rfl, rfl⟩ ⟨current, scan⟩
  · exact (quiet _ (by decide)).trans ((sameEvent_appendExtent (by decide) ..).trans
      ((sameEvent_answer ..).trans (sameEvent_afterRelease (by decide) (by decide) ..)))
  · have within : z.overLimit = false := by
      rw [same]
      exact overLimit_within limit
    obtain ⟨keptSnaps, events, retained⟩ := afterRelease_within told_stands within r.2.1
      r.2.2.poolFree
    have cat : told.cat = a.cat := (answer_changes ..).2 .cat (by decide)
    refine ⟨(retained w final).trans (congrArg Volume.retained same), retains.between rfl (.refl s)
      (keptSnaps.trans ((congrArg Catalogue.snaps cat).trans snaps)) ?_⟩
    exact (sameEvent_appendExtent (by decide) ..).trans ((sameEvent_answer ..).trans
      (.of_events events))

/-- Every clause of a RELEASE that passes its checks. -/
theorem release_leaves {r : Bytes} (takes : Takes s 5 r) (parsed : parseRelease r = some q)
    (valid : invalidOwner q.owner = false) (volume : q.volume ≠ 0) (high : q.blocks ≤ 16777215)
    (found : s.findVol q.volume = some (i, v)) (birth : q.birth ≤ v.openEpoch)
    (extent : q.start + q.length ≤ v.size) :
    let kept := retainedBlocks s i v q.birth q.blocks
    ∃ t w, exec .release s = .next t ∧ t.adm = s.adm ∧
      Answered s t (reply 5 (recordTag r)
        (if (s.findOwner q.owner).isSome = true then .ok else .untracked)
        (.release (((s.findOwner q.owner).map (·.used)).getD 0 - q.blocks) (q.blocks - kept) kept)) ∧
      (s.findOwner q.owner = none → t.owners = s.owners) ∧
      (∀ o, s.findOwner q.owner = some o →
        t.findOwner q.owner = some (s.reevaluate
          { o with used := o.used - q.blocks, lastCharge := s.time.uptime }) ∧
        (o.used < q.blocks → Raised s t .usageUnderflow q.owner.toNat)) ∧
      OthersKept q.owner s t ∧ t.vol i = some w ∧
      ((v.limit = 4294967295 ∨ v.retained + kept ≤ v.limit) →
        w.retained = v.retained + kept ∧ Retains s t i v q.birth kept) ∧
      Noted s t v w { start := q.start, length := q.length } := by
  intro kept
  let status : Status := if (s.findOwner q.owner).isSome then .ok else .untracked
  let u := s.dropHead.releaseQuota q.owner q.blocks
  let t := releaseRest (recordTag r) q i v status u
  have run : exec .release s = .next t := (whenReleased_taken takes parsed).trans
    (congrArg _ (releaseRequest_passes (s := s.dropHead) valid volume high found birth extent))
  obtain ⟨used, untracked, tracked, others, events⟩ :=
    releaseQuota_side s.dropHead q.owner q.blocks
  have quota : ChangesOnly [.owners, .link, .port] s u :=
    (within (by decide) (dropHead_changes s)).trans (releaseQuota_changes ..)
  have rest : ChangesOnly [.cat, .pool, .dup, .port] u t :=
    releaseRest_changes (recordTag r) q i v status
      (fun freed kept a => .release (a.usedOf q.owner) freed kept) u
  have cat : u.cat = s.cat := quota.2 .cat (by decide)
  have pool : u.poolFree = s.poolFree := quota.2 .pool (by decide)
  have vols : u.vol = s.vol := funext (vol_of_changes (by decide) quota)
  have same : retainedBlocks u i v q.birth q.blocks = kept := by
    unfold kept retainedBlocks State.newest State.snapsOf
    rw [cat]
  obtain ⟨w, stands, noted, quiet, within_limit⟩ := releaseRest_leaves (tag := recordTag r)
    (st := status) ((findVol_of_vol vols _).trans found)
  have answered := releaseRest_answered (tag := recordTag r) (q := q) (i := i) (v := v)
    (st := status) (s := s) (u := u) (releaseQuota_quiet ..)
  have owners := findOwner_of_changes (by decide) rest
  rw [same] at answered within_limit
  refine ⟨t, w, run, (rest.2 .adm (by decide)).trans (quota.2 .adm (by decide)), used ▸ answered,
    fun none => (rest.2 .owners (by decide)).trans (untracked none), fun o record => ?_,
    fun y other => (owners y).trans (others y other), stands, fun limit => ?_, ?_⟩
  · obtain ⟨lowered, under⟩ := tracked o record
    exact ⟨(owners _).trans lowered, fun below => raised_between (s := s) rfl (under below) quiet⟩
  · obtain ⟨retained, retains⟩ := within_limit limit
    exact ⟨retained, retains.between cat (events _ (by decide)) rfl (.refl _)⟩
  · exact noted.between pool (events _ (by decide)) (.refl _) ⟨rfl, rfl, rfl⟩ ⟨rfl, rfl⟩

/-- Settles O15: the insertion rule, the RELEASE, the refusals request by request. -/
theorem releaseLowersUsedAndRefusalsChangeNothing :
    Obligations.ReleaseLowersUsedAndRefusalsChangeNothing := by
  refine ⟨⟨fun b l ascends => ⟨insertBucket_short ascends, fun x y rest list long =>
    insertBucket_long ascends list long⟩, ?_⟩, ?_⟩
  · intro s r q takes parsed
    have refuse {st : Status} (h : releaseRequest (recordTag r) q s.dropHead =
        s.dropHead.answer 5 (recordTag r) st (.release)) := refused_taken (c := .release) rfl takes
      parsed h
    refine ⟨fun bad => refuse (releaseRequest_badField bad), fun valid volume high =>
      ⟨fun unknown => refuse (releaseRequest_noSuch (s := s.dropHead) valid volume high unknown),
        fun i v found => ⟨fun outside => refuse (releaseRequest_outside (s := s.dropHead) valid
          volume high found outside), ?_⟩⟩⟩
    intro birth extent kept
    have ofKept : kept = retainedBlocks s i v q.birth q.blocks := by
      unfold kept retainedBlocks
      cases s.newest i <;> rfl
    clear_value kept
    subst ofKept
    exact release_leaves takes parsed valid volume high found birth extent
  intro s r refused
  refine ⟨fun q takes parsed => ?_, fun q takes parsed => ?_, fun q takes parsed => ?_,
    fun q takes parsed => ?_, fun q takes parsed => ?_⟩
  · have refuse {st : Status} (h : commitRequest (recordTag r) q s.dropHead =
        s.dropHead.answer 3 (recordTag r) st (.commit)) : refused .commit 3 st (.commit) :=
      refused_taken rfl takes parsed h
    exact ⟨fun bad => refuse (commitRequest_badField bad), fun valid high =>
      ⟨fun some volume =>
        refuse (commitRequest_extent valid high (extentCheck_noVolume some volume)),
      fun some volume unknown =>
        refuse (commitRequest_extent valid high (extentCheck_unknown some volume unknown)),
      fun i v some volume found past => refuse (commitRequest_extent valid high
        ((extentCheck_found (s := s.dropHead) some volume found).trans (if_pos past))),
      fun e nonzero found inside foreign => refuse (commitRequest_foreign
        (s := s.dropHead) valid high (extentCheck_passes inside) nonzero found foreign)⟩⟩
  · intro owner volume snapshot formed
    have refuse {st : Status} (h : amendRequest (recordTag r) q s.dropHead =
        s.dropHead.answer 21 (recordTag r) st (.amend)) : refused .amend 21 st (.amend) :=
      refused_taken rfl takes parsed h
    refine ⟨fun malformed => refuse (amendRequest_malformed malformed),
      fun form other remove => refuse (amendRequest_removes form other remove),
      fun form names unknown => refuse (amendRequest_unknownOwner form names unknown),
      fun form names set unknown => refuse (amendRequest_unknownSnapshot form names set unknown),
      fun o form names found fails => refuse (amendRequest_ownerFails form names found fails),
      fun i v x form names set found snap fails =>
        refuse (amendRequest_snapshotFails form names set found snap fails),
      fun i form names set key => ⟨fun unknown =>
        refuse (amendRequest_unknownVolume form names set key unknown), ?_⟩⟩
    intro v found
    rw [← amendValue_volumeField]
    exact ⟨fun fails => refuse (amendRequest_volumeFails form names set key found fails),
      fun holds enable high =>
        refuse (amendRequest_enable form names set key found enable holds high)⟩
  · have refuse {st : Status} (h : loadVolumeRequest (recordTag r) q s.dropHead =
        s.dropHead.answer 24 (recordTag r) st (.loadVolume)) :
        refused .loadVolume 24 st (.loadVolume) := refused_taken rfl takes parsed h
    exact ⟨fun bad => refuse (loadVolume_fieldsBad bad),
      fun volume size opened profile auto dup base new full => refuse (loadVolumeRequest_full
        (s := s.dropHead) (loadVolume_fieldsOk volume size opened profile auto dup base) new full)⟩
  · have refuse {st : Status} (h : loadSnapshotRequest (recordTag r) q s.dropHead =
        s.dropHead.answer 25 (recordTag r) st (.loadSnapshot)) :
        refused .loadSnapshot 25 st (.loadSnapshot) := refused_taken rfl takes parsed h
    refine ⟨fun bad => refuse (loadSnapshotRequest_badField bad), fun kind volume epoch =>
      ⟨fun unknown => refuse (loadSnapshotRequest_noSuch (s := s.dropHead) kind volume epoch
        unknown), fun i v found => ?_⟩⟩
    rw [← loadListOk_eq]
    exact ⟨fun unfit =>
        refuse (loadSnapshotRequest_unfit (s := s.dropHead) kind volume epoch found unfit),
      fun below newest list full => refuse
        (loadSnapshotRequest_full (s := s.dropHead) kind volume epoch found below newest list full)⟩
  · have refuse {st : Status} (h : loadOwnerRequest (recordTag r) q s.dropHead =
        s.dropHead.answer 26 (recordTag r) st (.loadOwner)) :
        refused .loadOwner 26 st (.loadOwner) := refused_taken rfl takes parsed h
    exact ⟨fun bad => refuse (loadOwnerRequest_badField bad), fun valid present untracked =>
      refuse (loadOwnerRequest_untracked (s := s.dropHead) valid present untracked)⟩

end Sys2Proof.Proofs

/-! PROOFS. What the modes of the part depend on (R48, R55, R67, R100, R182): the part state, the
image, the hold lock, and of the link whether it is OFF, its generation and its silence outside
ACTIVE. Every operation but those that enter a part state or close the lock keeps all of them. -/

namespace Sys2Proof.Proofs

open Sys2Proof.Machine Sys2Proof.Safety

variable {l : List Block} {s t u : State} {k m : Link}

/-! ### The link -/

/-- The transmitter is silent: both slots are EMPTY, nothing is on the pair, no back-off runs
(R55). -/
def Silent (k : Link) : Prop :=
  k.announceSlot = .empty ∧ k.usageSlot = .empty ∧ k.onPair = none ∧ k.backoff = none

theorem quiet_iff : QuietOutsideActive s ↔ (s.link.state ≠ .active → Silent s.link) := Iff.rfl

/-- A link is OFF as before, in its generation, and as silent outside ACTIVE. -/
structure LinkSteady (k m : Link) : Prop where
  off : m.state = .off ↔ k.state = .off
  generation : m.generation = k.generation
  silent : (k.state ≠ .active → Silent k) → m.state ≠ .active → Silent m

theorem LinkSteady.refl (k : Link) : LinkSteady k k := ⟨Iff.rfl, rfl, id⟩

theorem LinkSteady.trans {n : Link} (h : LinkSteady k m) (g : LinkSteady m n) : LinkSteady k n :=
  ⟨g.off.trans h.off, g.generation.trans h.generation, fun q => g.silent (h.silent q)⟩

/-- In a link state that stands, silence is all that is left to keep. -/
theorem LinkSteady.of_state (state : m.state = k.state) (generation : m.generation = k.generation)
    (silent : Silent k → Silent m) : LinkSteady k m :=
  ⟨by rw [state], generation, fun q inactive => silent (q (state ▸ inactive))⟩

/-- A transmitter that is silent has no slot to take. -/
theorem takeLink_steady (k : Link) : LinkSteady k (takeLink k) := by
  obtain ⟨state, generation, -⟩ := slots_keep true [] k (takeLink k) (by simp)
  refine .of_state state generation fun silent => ?_
  have ⟨announce, usage, _⟩ := silent
  rw [takeLink_idle (by simp [announce]) (by simp [usage])]
  exact silent

/-- Only an ACTIVE link fills its ANNOUNCE slot (R53). -/
theorem fillLink_steady (k : Link) : LinkSteady k (fillLink k) := by
  obtain ⟨state, generation, -⟩ := slots_keep true [] k (fillLink k) (by simp)
  refine ⟨by rw [state], generation, fun q inactive => ?_⟩
  rw [state] at inactive
  rw [fillLink, if_neg inactive]
  exact q inactive

/-- Only an ACTIVE link fills its USAGE slot (R54). -/
theorem composeLink_steady (serving : Bool) (chosen : List (OwnerId × Nat)) (k : Link) :
    LinkSteady k (composeLink serving chosen k) := by
  obtain ⟨state, generation, -⟩ :=
    slots_keep serving chosen k (composeLink serving chosen k) (by simp)
  refine ⟨by rw [state], generation, fun q inactive => ?_⟩
  rw [state] at inactive
  rw [composeLink, if_neg fun ready => inactive ready.2.1]
  exact q inactive

/-- A link cut off and made MUTE (R59). -/
theorem muted_steady (on : k.state ≠ .off) :
    LinkSteady k { k.cutOff with state := .mute } :=
  ⟨⟨fun off => LinkState.noConfusion off, fun off => absurd off on⟩, rfl,
    fun _ _ => ⟨rfl, rfl, rfl, rfl⟩⟩

/-! ### The calculus -/

/-- The part state, the image and the hold lock stand, and the link is steady. -/
structure Steady (s t : State) : Prop where
  part : t.part = s.part
  image : t.image = s.image
  lock : lockOf t = lockOf s
  link : LinkSteady s.link t.link

theorem Steady.refl (s : State) : Steady s s := ⟨rfl, rfl, rfl, .refl _⟩

theorem Steady.trans (h : Steady s t) (g : Steady t u) : Steady s u :=
  ⟨g.part.trans h.part, g.image.trans h.image, g.lock.trans h.lock, h.link.trans g.link⟩

/-- A step that leaves the catalogue and the link alone. -/
theorem Steady.of_changes (hp : Block.cat ∉ l ∧ Block.link ∉ l) (h : ChangesOnly l s t) :
    Steady s t := by
  obtain ⟨⟨-, part, -, -, image, -⟩, blocks⟩ := h
  have cat : t.cat = s.cat := blocks .cat hp.1
  have link : t.link = s.link := blocks .link hp.2
  exact ⟨part, image, by rw [lockOf, cat, lockOf], link ▸ .refl _⟩

theorem Steady.of_port (h : ChangesOnly [.port] s t) : Steady s t := .of_changes (by decide) h

/-- Composition with the later step written first. -/
theorem Steady.after (g : Steady t u) (h : Steady s t) : Steady s u := h.trans g

theorem Steady.ite {p : Prop} [Decidable p] {a b : State} (h : p → Steady s a)
    (g : ¬p → Steady s b) : Steady s (if p then a else b) := ite_keeps (P := Steady s) h g

/-- A further step that a condition decides on. -/
theorem Steady.thenIf {p : Prop} [Decidable p] (h : Steady s t) (g : Steady t u) :
    Steady s (if p then u else t) := .ite (fun _ => h.trans g) fun _ => h

/-- A further step unless a condition holds. -/
theorem Steady.thenUnless {p : Prop} [Decidable p] (h : Steady s t) (g : Steady t u) :
    Steady s (if p then t else u) := .ite (fun _ => h) fun _ => h.trans g

theorem Steady.foldl {α : Type} {f : State → α → State} (h : ∀ s a, Steady s (f s a)) (xs : List α)
    (s : State) : Steady s (xs.foldl f s) :=
  foldl_keeps (P := Steady s) (fun u a hu => hu.trans (h u a)) xs s (.refl s)

/-! ### The operations that do not reach the modes -/

theorem setTime_steady (s : State) (x : Timebase) : Steady s (s.setTime x) :=
  .of_changes (by decide) (setTime_changes s x)

theorem setAdm_steady (s : State) (x : Admission) : Steady s (s.setAdm x) :=
  .of_changes (by decide) (setAdm_changes s x)

theorem setPool_steady (s : State) (x : Nat) : Steady s (s.setPool x) :=
  .of_changes (by decide) (setPool_changes s x)

theorem setRsc_steady (s : State) (x : Restore) : Steady s (s.setRsc x) :=
  .of_changes (by decide) (setRsc_changes s x)

theorem setDup_steady (s : State) (x : Duplication) : Steady s (s.setDup x) :=
  .of_changes (by decide) (setDup_changes s x)

theorem setPort_steady (s : State) (x : Port) : Steady s (s.setPort x) :=
  .of_port (setPort_changes ..)

theorem notice_steady (s : State) (n : Nat) (b : Body) : Steady s (s.notice n b) :=
  .of_port (notice_changes ..)

theorem raise_steady (s : State) (k : EventKind) (n : Nat) : Steady s (s.raise k n) :=
  .of_port (raise_changes ..)

theorem flushEvent_steady (s : State) : Steady s s.flushEvent :=
  .of_port (flushEvent_changes ..)

theorem putTicket_steady (s : State) (k : Fin 16) (x : Option Ticket) :
    Steady s (s.putTicket k x) :=
  .of_changes (by decide) (putTicket_changes ..)

theorem putContext_steady (s : State) (c : Fin 4) (x : Option Context) :
    Steady s (s.putContext c x) :=
  .of_changes (by decide) (putContext_changes ..)

theorem touchOwner_steady (s : State) (id : OwnerId) (f : Owner → Owner) :
    Steady s (s.touchOwner id f) :=
  .of_changes (by decide) (touchOwner_changes ..)

theorem removeEntry_steady (s : State) (e : Reservation) (f : Owner → Owner) :
    Steady s (s.removeEntry e f) :=
  .of_changes (by decide) (removeEntry_changes ..)

theorem recordSend_steady (s : State) : Steady s s.recordSend :=
  .of_changes (by decide) (recordSend_changes ..)

theorem recomputeShare_steady (s : State) : Steady s s.recomputeShare :=
  .of_changes (by decide) (recomputeShare_changes ..)

theorem startJob_steady (s : State) (c : Fin 4) (x : Context) (handle : Option Nat) :
    Steady s (s.startJob c x handle) :=
  .of_changes (by decide) (startJob_changes ..)

theorem testJobEnd_steady (s : State) (c : Fin 4) : Steady s (s.testJobEnd c) :=
  .of_changes (by decide) (testJobEnd_changes ..)

theorem placeCopies_steady (s : State) : Steady s s.placeCopies :=
  .of_changes (by decide) (placeCopies_changes ..)

theorem answer_steady (s : State) (kind tag : Nat) (st : Status) (b : Body) :
    Steady s (s.answer kind tag st b) := .of_port (answer_changes ..)

theorem setLink_steady (h : LinkSteady s.link m) : Steady s (s.setLink m) := ⟨rfl, rfl, rfl, h⟩

/-- What keeps the state of the transmitter keeps the link steady. -/
theorem setLink_steady_of (state : m.state = s.link.state)
    (generation : m.generation = s.link.generation) (silent : Silent s.link → Silent m) :
    Steady s (s.setLink m) := setLink_steady (.of_state state generation silent)

/-! ### Link Controller -/

theorem takeSlot_steady (s : State) : Steady s s.takeSlot :=
  takeSlot_eq s ▸ setLink_steady (takeLink_steady _)

theorem fillAnnounce_steady (s : State) : Steady s s.fillAnnounce :=
  fillAnnounce_eq s ▸ setLink_steady (fillLink_steady _)

theorem composeUsage_steady (s : State) : Steady s s.composeUsage :=
  composeUsage_eq s ▸ setLink_steady (composeLink_steady ..)

theorem usedChanged_steady (s : State) (id : OwnerId) (before : Nat) :
    Steady s (s.usedChanged id before) := by
  unfold State.usedChanged
  split
  · exact .refl s
  · exact .ite (fun _ => (composeUsage_steady s).trans (takeSlot_steady _)) fun _ => .refl s

theorem announceServing_steady (s : State) : Steady s s.announceServing :=
  .ite (fun _ => ((fillAnnounce_steady s).trans (composeUsage_steady _)).trans
    (takeSlot_steady _)) fun _ => .refl s

/-- A LISTENING link whose expiries are counted is not OFF, and silent until it is ACTIVE (R48). -/
theorem announceSlots_steady (s : State) : Steady s s.announceSlots := by
  unfold State.announceSlots
  refine .thenIf (.ite (fun listening => setLink_steady ⟨?_, rfl, fun q _ => ?_⟩) fun _ => .refl s)
    (((fillAnnounce_steady _).trans (composeUsage_steady _)).trans (takeSlot_steady _))
  · rw [listening]
    dsimp only
    split <;> decide
  · exact q (by rw [listening]; decide)

/-- A frame that has left the transmitter leaves it silent where it was (R50). -/
theorem frameSent_steady (s : State) : Steady s s.frameSent := by
  unfold State.frameSent
  refine .ite (fun held => setLink_steady_of rfl rfl fun ⟨announce, _⟩ => ?_) fun _ => ?_
  · exact absurd (held.symm.trans announce) (by decide)
  · refine Steady.trans (Steady.after ?_ (recordSend_steady s)) (composeUsage_steady _)
    exact setLink_steady_of rfl rfl fun ⟨announce, _, _, backoff⟩ => ⟨announce, rfl, rfl, backoff⟩

theorem giveUp_steady (s : State) : Steady s s.giveUp := by
  have emptied : Steady s (if s.link.announceSlot = .held then
      s.setLink { s.link with announceSlot := .empty }
    else s.setLink { s.link with usageSlot := .empty, usageEntries := [] }) :=
    .ite (fun _ => setLink_steady_of rfl rfl fun ⟨_, usage, pair, backoff⟩ =>
      ⟨rfl, usage, pair, backoff⟩) fun _ => setLink_steady_of rfl rfl
      fun ⟨announce, _, pair, backoff⟩ => ⟨announce, rfl, pair, backoff⟩
  have free (u : State) : Steady u (u.setLink { u.link with
      attempts := 0, onPair := none, replaced := false }) :=
    setLink_steady_of rfl rfl fun ⟨announce, usage, _, backoff⟩ => ⟨announce, usage, rfl, backoff⟩
  exact (((emptied.trans (free _)).trans (raise_steady ..)).trans (flushEvent_steady _)).trans
    (takeSlot_steady _)

theorem stationConflict_steady (s : State) : Steady s s.stationConflict := by
  have told : Steady s (s.raise .stationConflict s.station).flushEvent :=
    (raise_steady ..).trans (flushEvent_steady _)
  refine .ite (fun on => told.trans (setLink_steady (muted_steady ?_))) fun _ => told
  rcases on with listening | active
  · rw [listening]
    decide
  · rw [active]
    decide

theorem putPeer_steady (s : State) (i : Fin 16) (p : Peer) : Steady s (s.putPeer i p) :=
  setLink_steady_of rfl rfl id

theorem peerFrame_steady (s : State) (i : Fin 16) (f : Frame) (burst : Bytes) :
    Steady s (s.peerFrame i f burst) := by
  unfold State.peerFrame
  exact .ite (fun _ => .refl s) fun _ => .thenIf (putPeer_steady ..) (.trans
    (.foldl (fun u e => .of_changes (by decide) (usageEntry_changes u i f.generation e)) _ _)
    (flushEvent_steady _))

theorem forgetRequest_steady (tag station : Nat) (s : State) :
    Steady s (forgetRequest tag station s) := by
  unfold forgetRequest
  split
  · exact .ite (fun _ => answer_steady ..) fun _ => .ite (fun _ => answer_steady ..) fun _ =>
      .ite (fun _ => answer_steady ..) fun _ =>
      (putPeer_steady ..).trans (setLink_steady_of rfl rfl id)
  · exact answer_steady ..

theorem sweepVisit_steady (s : State) (w : Sweep) (o : Owner) : Steady s (s.sweepVisit w o) :=
  .thenIf (setLink_steady_of rfl rfl id) (touchOwner_steady ..)

theorem sweepEnd_steady (s : State) (w : Sweep) : Steady s (s.sweepEnd w) :=
  Steady.trans (setLink_steady_of (m := { s.link with
    peers := s.link.peers.set w.station Peer.reset, sweep := none, visitOwed := false }) rfl rfl id)
    (answer_steady ..)

/-! ### Snapshot Catalogue and change lists -/

theorem putVol_steady (s : State) (i : Fin 8) (v : Option Volume) : Steady s (s.putVol i v) :=
  ⟨rfl, rfl, rfl, .refl _⟩

theorem putSnaps_steady (s : State) (zs : List Snapshot) :
    Steady s (s.setCat { s.cat with snaps := zs }) := ⟨rfl, rfl, rfl, .refl _⟩

theorem modifySnap_steady (s : State) (i : Fin 8) (e : Nat) (f : Snapshot → Snapshot) :
    Steady s (s.modifySnap i e f) := putSnaps_steady ..

theorem modifyVol_steady (s : State) (i : Fin 8) (f : Volume → Volume) :
    Steady s (s.modifyVol i f) := by
  unfold State.modifyVol
  split
  · exact .refl s
  · exact putVol_steady ..

/-- A volume's record and an event about it. -/
theorem putVol_raise_steady (s : State) (i : Fin 8) (v : Option Volume) (e : EventKind) (n : Nat) :
    Steady s ((s.putVol i v).raise e n) := (putVol_steady ..).trans (raise_steady ..)

theorem appendCurrent_steady (s : State) (i : Fin 8) (x : Extent) :
    Steady s (s.appendCurrent i x) := by
  unfold State.appendCurrent
  split
  · exact .refl s
  · exact .ite (fun _ => .refl s) fun _ => .ite
      (fun _ => (putVol_steady ..).trans (setPool_steady ..)) fun _ =>
      ((putVol_steady ..).trans (setPool_steady ..)).trans (raise_steady ..)

theorem appendExtent_steady (s : State) (volume start length : Nat) :
    Steady s (s.appendExtent volume start length) := by
  unfold State.appendExtent
  split
  · exact .refl s
  · exact .ite (fun _ => .refl s) fun _ => appendCurrent_steady ..

theorem retainBlocks_steady (s : State) (i : Fin 8) (e v : Nat) (b : Bucket) :
    Steady s (s.retainBlocks i e v b) := by
  unfold State.retainBlocks
  split
  · exact .refl s
  · exact .thenIf (modifySnap_steady ..) (raise_steady ..)

theorem deletionStep_steady (s : State) (i : Fin 8) (v : Volume) (x : Snapshot) :
    Steady s (s.deletionStep i v x).2 := by
  unfold State.deletionStep
  exact ((Steady.foldl (fun u b => retainBlocks_steady u i _ v.id b) _ s).trans
    (putSnaps_steady ..)).trans (modifyVol_steady ..)

theorem evaluate_steady (s : State) (i : Fin 8) : Steady s (s.evaluate i) :=
  evaluate_keeps (P := Steady s) (fun _ _ _ _ _ _ hu => hu.trans (putVol_steady ..))
    (fun _ _ hu => hu.trans (putSnaps_steady ..)) (fun _ _ only hu => hu.trans (.of_port only))
    i s (.refl s)

theorem evaluateIfOver_steady (s : State) (i : Fin 8) : Steady s (s.evaluateIfOver i) := by
  unfold State.evaluateIfOver
  split
  · exact .refl s
  · exact .ite (fun _ => evaluate_steady ..) fun _ => .refl s

theorem evaluateWaiting_steady (s : State) : Steady s s.evaluateWaiting := by
  refine .ite (fun _ => .foldl (fun u i => ?_) _ s) fun _ => .refl s
  unfold State.evaluateFlagged
  split
  · exact .refl u
  · exact .ite (fun _ => evaluate_steady ..) fun _ => .refl u

/-! ### Duplication Scheduler -/

theorem issuePass_steady (s : State) : Steady s s.issuePass := by
  refine issuePass_invariant (P := Steady s) (fun u i v _ hu => hu.trans ?_) (.refl s)
  unfold State.issueTicket
  split
  · exact .refl u
  · exact ((((putVol_steady ..).trans (setPool_steady ..)).trans (putTicket_steady ..)).trans
      (setDup_steady ..)).trans (notice_steady ..)

theorem issueIfFreed_steady (s : State) (n : Nat) : Steady s (s.issueIfFreed n) :=
  .ite (fun _ => issuePass_steady s) fun _ => .refl s

theorem closeIfDone_steady (s : State) : Steady s s.closeIfDone := by
  unfold State.closeIfDone
  refine .ite (fun _ => .after (.foldl (fun u i => ?_) _ _) (setDup_steady ..)) fun _ => .refl s
  split
  · exact .refl u
  · exact .ite (fun _ => putVol_raise_steady ..) fun _ =>
      .ite (fun _ => putVol_raise_steady ..) fun _ => .refl u

theorem openWindow_steady (s : State) : Steady s s.openWindow :=
  .trans (.after (.foldl (fun u i => modifyVol_steady u i _) _ _) (setDup_steady ..))
    (setDup_steady ..)

theorem minuteChanged_steady (s : State) (n : Nat) : Steady s (s.minuteChanged n) := by
  unfold State.minuteChanged
  refine .ite (fun _ => ?_) fun _ => .refl s
  split
  · exact .ite (fun _ => openWindow_steady s) fun _ => .refl s
  · exact .ite (fun _ => .refl s) fun _ => (closeIfDone_steady _).after (setDup_steady ..)
  · exact .refl s

theorem placeCuts_steady (s : State) : Steady s s.placeCuts := by
  refine .foldl (fun u i => ?_) _ s
  split
  · exact .refl u
  · exact .ite (fun _ => (putVol_steady ..).trans (notice_steady ..)) fun _ => .refl u

theorem afterMinute_steady (s : State) : Steady s s.afterMinute :=
  ((placeCuts_steady _).after (flushEvent_steady s)).trans (issuePass_steady _)

theorem testEnd_steady (s : State) (i : Fin 8) : Steady s (s.testEnd i) := by
  unfold State.testEnd
  split
  · exact .refl s
  · exact .ite (fun _ => putVol_steady ..) fun _ => .refl s

theorem dupEndStep_steady (s : State) (i : Fin 8) : Steady s (s.dupEndStep i) := by
  unfold State.dupEndStep
  split
  · exact .refl s
  · rename_i v _
    refine .ite (fun _ => ?_) fun _ => .refl s
    have given : Steady s (match v.base with | some b => s.giveRef i b | none => s) := by
      split
      · exact modifySnap_steady ..
      · exact .refl s
    exact ((((given.trans (putVol_steady ..)).trans (notice_steady ..)).trans
      (evaluateIfOver_steady ..)).trans (closeIfDone_steady _)).trans (flushEvent_steady _)

theorem testAtRisk_steady (s : State) : Steady s s.testAtRisk := by
  refine .ite (fun _ => ?_) fun _ => .refl s
  refine List.foldlRecOn (motive := fun acc : Nat × State => Steady s acc.2) _ _ (.refl s)
    fun acc hacc x _ => hacc.trans ?_
  unfold riskStep
  split
  · split
    · exact putVol_raise_steady ..
    · exact .refl _
  · exact .refl _

theorem answerTicket_steady (s : State) (k : Fin 16) (x : Ticket) (ok : Bool) :
    Steady s (s.answerTicket k x ok) := by
  unfold State.answerTicket
  refine Steady.after ?_ (putTicket_steady s k none)
  dsimp only
  split
  · exact .of_changes (by decide) (setPool_changes ..)
  · exact .thenIf ((putVol_steady ..).trans (setPool_steady ..)) (raise_steady ..)

theorem restoreEnds_steady (s : State) : Steady s s.restoreEnds :=
  .ite (fun _ => (issuePass_steady _).after (setDup_steady ..)) fun _ =>
    .of_changes (by decide) (setDup_changes ..)

/-! ### Restore Controller and the arrival of room -/

theorem freeContext_steady (s : State) (c : Fin 4) (x : Context) : Steady s (s.freeContext c x) :=
  (modifySnap_steady ..).after (putContext_steady ..)

theorem restoreEndStep_steady (s : State) (c : Fin 4) : Steady s (s.restoreEndStep c) := by
  unfold State.restoreEndStep
  split
  · exact .refl s
  · rename_i x _
    refine .ite (fun _ => ?_) fun _ => .refl s
    have removed : Steady s (match x.handle.bind s.entryByHandle with
        | some e => s.removeEntry e fun o => o
        | none => s) := by
      split
      · exact .of_changes (by decide) (removeEntry_changes ..)
      · exact .refl s
    exact ((((removed.trans (freeContext_steady ..)).trans (notice_steady ..)).trans
      (restoreEnds_steady _)).trans (evaluateIfOver_steady ..)).trans (flushEvent_steady _)

theorem assemblyTimeout_steady (s : State) (c : Fin 4) : Steady s (s.assemblyTimeout c) := by
  unfold State.assemblyTimeout
  split
  · exact .refl s
  · exact .ite (fun _ => (((freeContext_steady ..).trans (notice_steady ..)).trans
      (evaluateIfOver_steady ..)).trans (flushEvent_steady _)) fun _ => .refl s

theorem roomArrives_steady (s : State) : Steady s s.roomArrives := by
  have jobs : Steady s (slots4.foldl (fun s c => (s.assemblyTimeout c).restoreEndStep c)
      s.flushEvent) :=
    .after (.foldl (fun u c => (assemblyTimeout_steady u c).trans (restoreEndStep_steady _ c)) _ _)
      (flushEvent_steady s)
  have ends := jobs.trans (.foldl dupEndStep_steady slots8 _)
  exact (((ends.trans (evaluateWaiting_steady _)).trans (placeCuts_steady _)).trans
    (placeCopies_steady _)).trans (issuePass_steady _)

end Sys2Proof.Proofs

/-! PROOFS. Every step keeps the image, the link and the hold lock agreeing with the part state, and
the transmitter silent outside ACTIVE (R48, R55, R67, R100, R182): settles O55. -/

namespace Sys2Proof.Proofs

open Sys2Proof.Machine Sys2Proof.Safety

variable {l : List Block} {s t : State}

/-! ### Requests that keep the modes -/

theorem finishCommit_steady (s : State) (tag : Nat) (q : CommitReq) (st : Status)
    (charged used : Nat) (quota : QuotaState) :
    Steady s (s.finishCommit tag q st charged used quota) :=
  ((appendExtent_steady ..).trans (answer_steady ..)).trans (issueIfFreed_steady ..)

theorem commitLate_steady (tag : Nat) (q : CommitReq) (s : State) :
    Steady s (commitLate tag q s) := by
  unfold commitLate
  split
  · exact finishCommit_steady ..
  · refine Steady.after ?_ (raise_steady s .lateCommit q.owner.toNat)
    dsimp only
    split
    · exact finishCommit_steady ..
    · rename_i made
      exact ((usedChanged_steady ..).trans (finishCommit_steady ..)).after (.of_changes (by decide)
        ((ensureOwner_changes _ _ _ made).trans (touchOwner_changes ..)))

theorem commitRequest_steady (tag : Nat) (q : CommitReq) (s : State) :
    Steady s (commitRequest tag q s) := by
  unfold commitRequest
  refine .ite (fun _ => answer_steady ..) fun _ => ?_
  split
  · exact answer_steady ..
  split
  · exact commitLate_steady ..
  · exact .ite (fun _ => answer_steady ..) fun _ =>
      ((usedChanged_steady ..).trans (finishCommit_steady ..)).after (removeEntry_steady ..)

theorem releaseQuota_steady (s : State) (id : OwnerId) (b : Nat) :
    Steady s (s.releaseQuota id b) := by
  unfold State.releaseQuota
  split
  · exact .refl s
  · exact (Steady.thenIf (touchOwner_steady ..) (raise_steady ..)).trans (usedChanged_steady ..)

theorem releaseRetention_steady (s : State) (i : Fin 8) (v : Volume) (birth c : Nat) :
    Steady s (s.releaseRetention i v birth c).2.2 := by
  unfold State.releaseRetention
  split
  · exact .refl s
  split
  · exact .refl s
  dsimp only
  split
  · exact .refl s
  · exact (retainBlocks_steady ..).trans (modifyVol_steady ..)

theorem releaseRequest_steady (tag : Nat) (q : ReleaseReq) (s : State) :
    Steady s (releaseRequest tag q s) := by
  unfold releaseRequest
  refine .ite (fun _ => answer_steady ..) fun _ => ?_
  split
  · exact answer_steady ..
  · refine .ite (fun _ => answer_steady ..) fun _ => ?_
    exact (Steady.thenUnless ((((releaseQuota_steady ..).trans (releaseRetention_steady ..)).trans
      (appendExtent_steady ..)).trans (answer_steady ..)) (evaluate_steady ..)).trans
      (issueIfFreed_steady ..)

theorem makeSnapshot_steady (s : State) (i : Fin 8) (v : Volume) (kind : SnapKind) (label : Nat) :
    Steady s (s.makeSnapshot i v kind label) := (putSnaps_steady ..).trans (putVol_steady ..)

theorem cutVolume_steady (s : State) (i : Fin 8) (v : Volume) (epoch : Nat) :
    Steady s (s.cutVolume i v epoch) := by
  have moved : Steady s (match v.sendEpoch with
      | some e => (s.takeRef i epoch).giveRef i e
      | none => s.takeRef i epoch) := by
    split
    · exact (modifySnap_steady ..).trans (modifySnap_steady ..)
    · exact modifySnap_steady ..
  exact ((moved.trans (putVol_steady ..)).trans (setPool_steady ..)).trans (testEnd_steady ..)

theorem snapshotRequest_steady (tag : Nat) (q : SnapshotReq) (s : State) :
    Steady s (snapshotRequest tag q s) := by
  unfold snapshotRequest
  split
  · exact answer_steady ..
  refine .ite (fun _ => answer_steady ..) fun _ => ?_
  split
  · exact answer_steady ..
  split
  · exact answer_steady ..
  · refine .ite (fun _ => ?_) fun _ => (makeSnapshot_steady ..).trans (answer_steady ..)
    exact (Steady.thenIf ((((makeSnapshot_steady ..).trans (cutVolume_steady ..)).trans
      (answer_steady ..)).trans (dupEndStep_steady ..)) (evaluateIfOver_steady ..)).trans
      (issuePass_steady _)

theorem deleteRequest_steady (tag : Nat) (q : DeleteReq) (s : State) :
    Steady s (deleteRequest tag q s) := by
  unfold deleteRequest
  refine .ite (fun _ => answer_steady ..) fun _ => ?_
  split
  · exact answer_steady ..
  split
  · exact answer_steady ..
  · exact .ite (fun _ => (deletionStep_steady ..).trans (answer_steady ..)) fun _ =>
      answer_steady ..

theorem markRequest_steady (kind : Nat) (locked : State → Bool) (read : Snapshot → Bool)
    (write : Snapshot → Bool → Snapshot) (tag : Nat) (q : MarkReq) (s : State) :
    Steady s (markRequest kind locked read write tag q s) := by
  unfold markRequest
  refine .ite (fun _ => answer_steady ..) fun _ => ?_
  split
  · exact answer_steady ..
  split
  · exact answer_steady ..
  · exact .ite (fun _ => answer_steady ..) fun _ =>
      .thenIf ((modifySnap_steady ..).trans (answer_steady ..)) (evaluateIfOver_steady ..)

theorem openRequest_steady (tag : Nat) (q : OpenReq) (s : State) :
    Steady s (openRequest tag q s) := by
  unfold openRequest
  refine .ite (fun _ => answer_steady ..) fun _ => ?_
  split
  · refine .ite (fun _ => answer_steady ..) fun _ => ?_
    split
    · exact answer_steady ..
    · exact (((modifySnap_steady ..).after (putContext_steady ..)).trans (setRsc_steady ..)).trans
        (answer_steady ..)
  · exact answer_steady ..

/-- The end of a job that never ran. -/
theorem freeAnswerEvaluate_steady (s : State) (c : Fin 4) (x : Context) (kind tag : Nat)
    (st : Status) (b : Body) (i : Fin 8) :
    Steady s (((s.freeContext c x).answer kind tag st b).evaluateIfOver i) :=
  ((freeContext_steady ..).trans (answer_steady ..)).trans (evaluateIfOver_steady ..)

theorem itemRequest_steady (tag : Nat) (q : ItemReq) (s : State) :
    Steady s (itemRequest tag q s) := by
  unfold itemRequest
  refine .ite (fun _ => answer_steady ..) fun _ => ?_
  split
  · exact answer_steady ..
  · refine .ite (fun _ => answer_steady ..) fun _ => ?_
    split
    · exact freeAnswerEvaluate_steady ..
    · exact (answer_steady ..).after (putContext_steady ..)

theorem admit_steady (s : State) (id : OwnerId) (c : Fin 8) (n v : Nat) (o : Origin) :
    Steady s (s.admitBlocks id c n v o).2 := .of_changes (by decide) (admit_changes ..)

theorem goRequest_steady (tag : Nat) (q : JobReq) (s : State) : Steady s (goRequest tag q s) := by
  unfold goRequest
  refine .ite (fun _ => answer_steady ..) fun _ => ?_
  split
  · exact answer_steady ..
  · refine .ite (fun _ => answer_steady ..) fun _ =>
      .ite (fun _ => freeAnswerEvaluate_steady ..) fun _ => ?_
    split
    · exact .ite (fun _ => (((admit_steady ..).trans
        (startJob_steady ..)).trans (answer_steady ..)).trans (placeCopies_steady _)) fun _ =>
        (freeAnswerEvaluate_steady ..).after (admit_steady ..)
    · exact ((answer_steady ..).after (startJob_steady ..)).trans (placeCopies_steady _)

theorem cancelJobRequest_steady (tag : Nat) (q : JobReq) (s : State) :
    Steady s (cancelJobRequest tag q s) := by
  unfold cancelJobRequest
  refine .ite (fun _ => answer_steady ..) fun _ => ?_
  split
  · exact answer_steady ..
  · have told (u : State) (c : Fin 4) (b : Body) :
        Steady u (((u.testJobEnd c).answer 14 tag .ok b).restoreEndStep c) :=
      ((answer_steady ..).after (testJobEnd_steady ..)).trans (restoreEndStep_steady ..)
    split
    · exact freeAnswerEvaluate_steady ..
    · exact (told ..).after (putContext_steady ..)
    · exact told ..

theorem chargeRestore_steady (s : State) (x : Context) (n : Nat) :
    Steady s (s.chargeRestore x n) := by
  unfold State.chargeRestore
  split
  · exact .refl s
  · exact ((usedChanged_steady ..).after (touchOwner_steady ..)).after (setAdm_steady ..)

theorem copiedRequest_steady (tag : Nat) (q : CopiedReq) (s : State) :
    Steady s (copiedRequest tag q s) := by
  unfold copiedRequest
  refine .ite (fun _ => answer_steady ..) fun _ => ?_
  split
  · exact answer_steady ..
  split
  · exact answer_steady ..
  · refine .ite (fun _ => answer_steady ..) fun _ => ?_
    refine (Steady.thenIf (.trans (.trans (.trans ?_ (testJobEnd_steady ..)) (answer_steady ..))
      (restoreEndStep_steady ..)) (placeCopies_steady _)).trans (issueIfFreed_steady ..)
    exact .thenIf (putContext_steady ..) ((chargeRestore_steady ..).trans (appendCurrent_steady ..))

theorem sentRequest_steady (tag : Nat) (q : SentReq) (s : State) :
    Steady s (sentRequest tag q s) := by
  unfold sentRequest
  refine .ite (fun _ => answer_steady ..) fun _ => ?_
  split
  · exact answer_steady ..
  · exact ((((((answerTicket_steady ..).trans (answer_steady ..)).trans (testEnd_steady ..)).trans
      (dupEndStep_steady ..)).trans (closeIfDone_steady _)).trans (flushEvent_steady _)).trans
      (issuePass_steady _)

theorem duplicateNowRequest_steady (tag volume : Nat) (s : State) :
    Steady s (duplicateNowRequest tag volume s) := by
  unfold duplicateNowRequest
  refine .ite (fun _ => answer_steady ..) fun _ => ?_
  split
  · exact answer_steady ..
  · exact .ite (fun _ => answer_steady ..) fun _ => .ite (fun _ => answer_steady ..) fun _ =>
      ((putVol_steady ..).trans (answer_steady ..)).trans (placeCuts_steady _)

theorem clockRequest_steady (tag minute : Nat) (s : State) :
    Steady s (clockRequest tag minute s) :=
  .ite (fun _ => answer_steady ..) fun _ => (((minuteChanged_steady ..).after
    (setTime_steady ..)).trans (answer_steady ..)).trans (afterMinute_steady _)

theorem amendVolume_steady (tag : Nat) (q : AmendReq) (f : AmendField) (s : State) :
    Steady s (amendVolume tag q f s) := by
  unfold amendVolume
  split
  · refine .ite (fun _ => answer_steady ..) fun _ => ?_
    split
    · exact answer_steady ..
    · exact .ite (fun _ => .ite (fun _ => answer_steady ..) fun _ => .thenIf
        ((putVol_steady ..).trans (answer_steady ..)) (evaluate_steady ..)) fun _ =>
        answer_steady ..
  · exact answer_steady ..

theorem amendSnapshot_steady (tag : Nat) (q : AmendReq) (s : State) :
    Steady s (amendSnapshot tag q s) := by
  unfold amendSnapshot
  refine .ite (fun _ => answer_steady ..) fun _ => ?_
  split
  · exact answer_steady ..
  split
  · exact answer_steady ..
  · exact .ite (fun _ => (modifySnap_steady ..).trans (answer_steady ..)) fun _ =>
      answer_steady ..

theorem amendRequest_steady (tag : Nat) (q : AmendReq) (s : State) :
    Steady s (amendRequest tag q s) := by
  unfold amendRequest
  refine .ite (fun _ => answer_steady ..) fun _ => ?_
  split
  · exact answer_steady ..
  · exact .of_changes (by decide) (amendOwner_changes ..)
  · exact .of_changes (by decide) (amendOwner_changes ..)
  · exact amendSnapshot_steady ..
  · exact amendVolume_steady ..

theorem loadVolumeRequest_steady (tag : Nat) (q : LoadVolumeReq) (s : State) :
    Steady s (loadVolumeRequest tag q s) := by
  unfold loadVolumeRequest
  refine .ite (fun _ => answer_steady ..) fun _ => ?_
  split
  · exact answer_steady ..
  · exact (putVol_steady ..).trans (answer_steady ..)

theorem loadSnapshotRequest_steady (tag : Nat) (q : LoadSnapshotReq) (s : State) :
    Steady s (loadSnapshotRequest tag q s) := by
  unfold loadSnapshotRequest
  split
  · exact answer_steady ..
  refine .ite (fun _ => answer_steady ..) fun _ => ?_
  split
  · exact answer_steady ..
  · exact .ite (fun _ => answer_steady ..) fun _ => .ite (fun _ => answer_steady ..) fun _ =>
      ((putSnaps_steady ..).trans (putVol_steady ..)).trans (answer_steady ..)

/-! ### Commands that keep the modes -/

theorem released_steady {f : State → State} (rule : Steady s (f s))
    (h : whenReleased s f = .next t) : Steady s t :=
  whenReleased_keeps (P := Steady s) rule h (.refl s)

theorem request_steady {α : Type} {kind : Nat} {parse : Bytes → Option α} {blank : Body}
    {carry : Nat → α → State → State} (rule : ∀ tag q s, Steady s (carry tag q s))
    (h : whenReleased s (takeRequest kind parse blank carry) = .next t) : Steady s t :=
  request_keeps (P := Steady s) (fun _ _ only hu => hu.trans (.of_port only))
    (fun tag q u hu => hu.trans (rule tag q u)) h (.refl s)

theorem read_steady {clocked : Nat} (h : execRead clocked s = .next t) : Steady s t := by
  have shifted (more : Bytes) : Steady s (s.shiftStatus more) :=
    .of_port (shiftStatus_changes ..)
  refine released_steady ?_ h
  refine .ite (fun _ => shifted _) fun _ => ?_
  split
  · exact shifted _
  · exact .ite (fun _ => .thenIf ((shifted _).trans (setPort_steady ..)) (roomArrives_steady _))
      fun _ => shifted _

theorem announceTimer_steady (h : execAnnounceTimerExpiry s = .next t) : Steady s t := by
  refine released_steady ?_ h
  split
  · exact .refl s
  · rename_i d _
    refine .ite (fun _ => ?_) fun _ => .refl s
    have timed : Steady s (s.setLink { s.link with
        announceNext := some (d + secondsMs s.cfg.announceInterval) }) :=
      setLink_steady_of rfl rfl id
    exact ((((timed.trans (recomputeShare_steady _)).trans (testAtRisk_steady _)).trans
      (flushEvent_steady _)).trans (issuePass_steady _)).trans (announceSlots_steady _)

/-- An attempt starts only with a frame held, and so in ACTIVE (R50). -/
theorem transmitAttemptStart_steady (h : execTransmitAttemptStart s = .next t) : Steady s t := by
  refine released_steady ?_ h
  split
  · exact .refl s
  · rename_i frame held
    refine .ite (fun _ => setLink_steady_of rfl rfl fun ⟨announce, usage, _⟩ => ?_) fun _ =>
      .refl s
    simp [State.heldFrame, announce, usage] at held

/-- A collision ends an attempt, and so comes about only in ACTIVE (R51, R52). -/
theorem collision_steady (h : execCollision s = .next t) : Steady s t := by
  refine released_steady ?_ h
  refine .ite (fun driving => .ite (fun _ => giveUp_steady s) fun _ =>
    setLink_steady_of rfl rfl fun ⟨_, _, pair, _⟩ => ?_) fun _ => .refl s
  simp [pair] at driving

theorem frameReceived_steady {burst : List (BitVec 8)} (h : execFrameReceived burst s = .next t) :
    Steady s t := by
  have error (n : Nat) : Steady s (s.linkError n) := .of_port (linkError_changes ..)
  refine released_steady ?_ h
  refine .ite (fun _ => .refl s) fun _ => .ite (fun _ => error _) fun _ =>
    .ite (fun _ => error _) fun _ => .ite (fun _ => stationConflict_steady s) fun _ => ?_
  split
  · exact peerFrame_steady ..
  · exact .refl s

/-- The commands that enter a part state or close the lock (R101, R180, R182, R183, R187). -/
def changesModes : Instr → Bool
  | .powerOnReset _ _ | .configCheck _ | .restart | .loadDone | .lockHolds => true
  | _ => false

/-- Every other command keeps the modes. -/
theorem exec_steady (c : Instr) (other : changesModes c = false) (h : exec c s = .next t) :
    Steady s t := by
  by_cases framed : ∃ l, mayChange c = some l ∧ Block.cat ∉ l ∧ Block.link ∉ l
  · obtain ⟨l, hl, hp⟩ := framed
    exact .of_changes hp (exec_changes c hl h)
  cases c <;> simp only [exec] at h
  case rstAsserted => cases h; exact ⟨rfl, rfl, rfl, .refl _⟩
  case read => exact read_steady h
  case commit => exact request_steady commitRequest_steady h
  case release => exact request_steady releaseRequest_steady h
  case snapshot => exact request_steady snapshotRequest_steady h
  case deleteSnapshot => exact request_steady deleteRequest_steady h
  case expiryWaitingEvaluation => exact released_steady (evaluateWaiting_steady s) h
  case hold => exact request_steady (markRequest_steady 8 _ _ _) h
  case pin => exact request_steady (markRequest_steady 9 _ _ _) h
  case restoreOpen => exact request_steady openRequest_steady h
  case restoreItem => exact request_steady itemRequest_steady h
  case restoreGo => exact request_steady goRequest_steady h
  case restoreCancel => exact request_steady cancelJobRequest_steady h
  case copied => exact request_steady copiedRequest_steady h
  case assemblyTimeout => exact released_steady (assemblyTimeout_steady ..) h
  case restoreEndStep => exact released_steady (restoreEndStep_steady ..) h
  case sent => exact request_steady sentRequest_steady h
  case duplicateNow => exact request_steady duplicateNowRequest_steady h
  case clock => exact request_steady clockRequest_steady h
  case minuteAdvance =>
    refine released_steady ?_ h
    split
    · exact .ite (fun _ => ((minuteChanged_steady ..).after (setTime_steady ..)).trans
        (afterMinute_steady _)) fun _ => .refl s
    · exact .refl s
  case windowClosed => exact released_steady ((closeIfDone_steady s).trans (flushEvent_steady _)) h
  case cutNotice => exact released_steady (placeCuts_steady s) h
  case cutTimeout =>
    refine released_steady ?_ h
    split
    · exact .refl s
    · exact .ite (fun _ => (putVol_raise_steady ..).trans (flushEvent_steady _)) fun _ => .refl s
  case issuePass => exact released_steady (issuePass_steady s) h
  case tokenGain =>
    exact released_steady (.ite (fun _ => ((issuePass_steady _).after (setDup_steady ..)).after
      (setTime_steady ..)) fun _ => .refl s) h
  case dupEndStep => exact released_steady (dupEndStep_steady ..) h
  case forgetStation => exact request_steady forgetRequest_steady h
  case forgetSweepVisit =>
    refine released_steady ?_ h
    split
    · exact .refl s
    split
    · exact .refl s
    · exact .ite (fun _ => sweepVisit_steady ..) fun _ => .refl s
  case forgetSweepEnd =>
    refine released_steady ?_ h
    split
    · exact .refl s
    · exact .ite (fun _ => sweepEnd_steady ..) fun _ => .refl s
  case amend => exact request_steady amendRequest_steady h
  case loadVolume => exact request_steady loadVolumeRequest_steady h
  case loadSnapshot => exact request_steady loadSnapshotRequest_steady h
  case announceTimerExpiry => exact announceTimer_steady h
  case peerStaleDeadline =>
    exact released_steady (.ite (fun _ => putPeer_steady ..) fun _ => .refl s) h
  case transmitAttemptStart => exact transmitAttemptStart_steady h
  case attemptSuccess =>
    exact released_steady (.ite (fun _ => (frameSent_steady s).trans (takeSlot_steady _)) fun _ =>
      .refl s) h
  case collision => exact collision_steady h
  case backoffExpiry =>
    refine released_steady ?_ h
    exact setLink_steady_of rfl rfl fun ⟨announce, usage, pair, _⟩ => ⟨announce, usage, pair, rfl⟩
  case frameReceived => exact frameReceived_steady h
  case powerOnReset | configCheck | restart | loadDone | lockHolds => exact nomatch other
  all_goals exact absurd ⟨_, rfl, by decide⟩ framed

/-! ### The commands that change the modes -/

/-- The modes agree with the part state, and the transmitter is silent outside ACTIVE. -/
def ModesKept (s : State) : Prop := ModesAgree s ∧ QuietOutsideActive s

theorem Steady.modesKept (h : Steady s t) (hs : ModesKept s) : ModesKept t := by
  obtain ⟨part, image, lock, off, generation, silent⟩ := h
  obtain ⟨⟨byImage, byLink, byLock, byGeneration⟩, quiet⟩ := hs
  have lock : t.cat.lock = s.cat.lock := congrArg Prod.fst lock
  refine ⟨⟨?_, ?_, ?_, ?_⟩, silent quiet⟩
  · rw [image, part]
    exact byImage
  · rw [off, part]
    exact byLink
  · rw [lock, part]
    exact byLock
  · rw [part, generation]
    exact byGeneration

theorem modesKept_of_port (s t : State) (h : ChangesOnly [.port] s t) (hs : ModesKept s) :
    ModesKept t := Steady.modesKept (.of_port h) hs

/-- A silent link that is OFF in a part whose lock is not fixed: what the entry to LOADING or HALTED
starts from (R182, R183). -/
structure Dormant (s : State) : Prop where
  off : s.link.state = .off
  generation : s.link.generation = 0
  unfixed : s.cat.lock = .unfixed
  silent : Silent s.link

theorem enterLoading_modesKept (h : Dormant s) (image : s.image.isSome = true) :
    ModesKept s.enterLoading := by
  obtain ⟨-, generation, unfixed, silent⟩ := h
  refine ⟨⟨?_, ?_, ?_, fun _ => generation⟩, fun _ => silent⟩
  · exact ⟨fun _ => .inl rfl, fun _ => image⟩
  · exact ⟨fun off => LinkState.noConfusion off, by rintro (part | part) <;> cases part⟩
  · exact ⟨fun fixed => absurd unfixed fixed, fun part => PartState.noConfusion part⟩

theorem enterHalted_modesKept (h : Dormant s) (image : s.image = none) :
    ModesKept s.enterHalted := by
  obtain ⟨off, generation, unfixed, silent⟩ := h
  refine modesKept_of_port (s.setPart .halted) _
    ((raise_changes ..).trans (flushEvent_changes _)) ?_
  refine ⟨⟨?_, ?_, ?_, fun _ => generation⟩, fun _ => silent⟩
  · refine ⟨fun some => ?_, by rintro (part | part) <;> cases part⟩
    simp [image] at some
  · exact ⟨fun _ => .inr rfl, fun _ => off⟩
  · exact ⟨fun fixed => absurd unfixed fixed, fun part => PartState.noConfusion part⟩

/-- The entry to LOADING or HALTED, as the image check says (R177 step 6, R188). -/
theorem enterChecked_modesKept (h : Dormant s) : ModesKept s.enterChecked := by
  unfold State.enterChecked
  refine ite_keeps (enterLoading_modesKept h) fun absent => enterHalted_modesKept h ?_
  simpa using absent

/-- A CONFIGURING part is dormant. -/
theorem dormant_of_configuring (hs : ModesKept s) (part : s.part = .configuring) : Dormant s := by
  obtain ⟨⟨-, byLink, byLock, byGeneration⟩, quiet⟩ := hs
  have off := byLink.mpr (.inl part)
  refine ⟨off, byGeneration (by simp [part]), ?_, quiet (by simp [off])⟩
  by_contra fixed
  rw [byLock.mp fixed] at part
  cases part

theorem configCheck_modesKept {image : List (BitVec 8)} (h : execConfigCheck image s = .next t)
    (hs : ModesKept s) : ModesKept t := by
  refine whenReleased_keeps (ite_keeps (fun part => ?_) fun _ => hs) h hs
  obtain ⟨off, generation, unfixed, silent⟩ := dormant_of_configuring hs part
  dsimp only
  split <;> exact enterChecked_modesKept ⟨off, generation, unfixed, silent⟩

/-- A RESTART begins with a part as it was reset (R177). -/
theorem restartRequest_modesKept (tag : Nat) (q : Unit) (s : State) :
    ModesKept (restartRequest tag q s) := by
  have only : ChangesOnly [.port] s.restarted
      (s.restarted.answer 23 tag .ok (.restart s.station.val s.checkedPart 0)) := answer_changes ..
  have link := only.2 .link (by decide)
  have cat := only.2 .cat (by decide)
  refine enterChecked_modesKept ⟨?_, ?_, ?_, ?_⟩
  · exact congrArg Link.state link
  · exact congrArg Link.generation link
  · exact congrArg Catalogue.lock cat
  · rw [link]
    exact ⟨rfl, rfl, rfl, rfl⟩

/-- LOCK_HOLDS is served in SERVING alone, where the lock is fixed (R100, R101). -/
theorem lockRequest_modesKept (tag : Nat) (q : Unit) (s : State)
    (served : servedIn s.part 10 = true) (hs : ModesKept s) :
    ModesKept (lockRequest tag q s) := by
  have serving : s.part = .serving := by
    cases part : s.part <;> simp [part, servedIn] at served ⊢
  refine modesKept_of_port _ _ (answer_changes ..) (ite_keeps (fun _ => ?_) fun _ => hs)
  obtain ⟨⟨byImage, byLink, -, byGeneration⟩, quiet⟩ := hs
  exact ⟨⟨byImage, byLink, ⟨fun _ => serving, fun _ => by simp⟩, byGeneration⟩, quiet⟩

/-- LOAD_DONE is served in LOADING alone; it fixes the lock and gives the generation (R187). -/
theorem loadDoneRequest_modesKept (tag g : Nat) (s : State) (served : servedIn s.part 27 = true)
    (hs : ModesKept s) : ModesKept (loadDoneRequest tag g s) := by
  have loading : s.part = .loading := by
    cases part : s.part <;> simp [part, servedIn] at served ⊢
  by_cases zero : g = 0
  · rw [loadDoneRequest, if_pos zero]
    exact modesKept_of_port _ _ (answer_changes ..) hs
  rw [loadDoneRequest_eq zero]
  refine Steady.modesKept (s := inService g s) ?_ ?_
  · exact ((answer_steady ..).trans (announceServing_steady _)).trans (.foldl evaluate_steady _ _)
  obtain ⟨⟨byImage, byLink, -, -⟩, quiet⟩ := hs
  obtain ⟨part, -, image, -, -, -, -, -, -, link⟩ := inService_fields g s
  have lock : (lockOf (inService g s)).1 = (lockAtLoadDone s.cfg s.maint).1 := by
    rw [inService_lock]
  have fixed : (lockAtLoadDone s.cfg s.maint).1 ≠ .unfixed := by
    rw [lockAtLoadDone_eq]
    dsimp only
    split <;> decide
  refine ⟨⟨?_, ?_, ?_, fun other => absurd part other⟩, ?_⟩
  · rw [image, part]
    exact ⟨fun _ => .inr rfl, fun _ => byImage.mpr (.inl loading)⟩
  · have on : ¬ s.link.state = .off := fun off => by simpa [loading] using byLink.mp off
    rw [part, link]
    exact ⟨fun off => absurd off on, by rintro (part | part) <;> cases part⟩
  · refine ⟨fun _ => part, fun _ => ?_⟩
    change (lockOf (inService g s)).1 ≠ _
    rw [lock]
    exact fixed
  · rw [quiet_iff, link]
    exact quiet

/-! ### Every step -/

theorem exec_modesKept (c : Instr) (s t : State) (h : exec c s = .next t) (hs : ModesKept s) :
    ModesKept t := by
  by_cases other : changesModes c = false
  · exact (exec_steady c other h).modesKept hs
  cases c <;> simp only [exec] at h
  case powerOnReset =>
    cases h
    exact ⟨reset_modesAgree, fun _ => ⟨rfl, rfl, rfl, rfl⟩⟩
  case configCheck => exact configCheck_modesKept h hs
  case restart =>
    exact request_keeps modesKept_of_port (fun tag q u _ => restartRequest_modesKept tag q u) h hs
  case loadDone => exact request_keeps_served modesKept_of_port loadDoneRequest_modesKept h hs
  case lockHolds => exact request_keeps_served modesKept_of_port lockRequest_modesKept h hs
  all_goals exact absurd rfl other

theorem tick_steady (s : State) : Steady s s.tick :=
  .ite (fun _ => .refl s) fun _ => .after (setLink_steady_of rfl rfl id) (setTime_steady s _)

/-- Settles O55: five commands enter a part state or close the lock, every other one is steady. -/
theorem stepKeepsModesAgreeing : Obligations.StepKeepsModesAgreeing := by
  intro s t agree quiet h
  exact step_keeps (P := ModesKept) (fun _ _ hs => hs) (fun s hs => (tick_steady s).modesKept hs)
    exec_modesKept h ⟨agree, quiet⟩

end Sys2Proof.Proofs

/-! PROOFS. Frames that are no news of a peer (R55, R58, R59): settles O43. -/

namespace Sys2Proof.Proofs

open Sys2Proof.Machine Sys2Proof.Safety

variable {s : State} {burst : Bytes}

/-- An event stays raised when the EVENT_PENDING behind it is placed. -/
theorem raise_flushEvent_raised (s : State) (k : EventKind) (n : Nat) :
    Raised s (s.raise k n).flushEvent k n :=
  raised_between (.of_events rfl) (raise_raised ..) (sameEvent_flushEvent _)

theorem frameReceived_unheard (released : s.rst = false)
    (unheard : s.link.state = .off ∨ burst.length < 5) :
    exec (.frameReceived burst) s = .next s := by
  refine (exec_released (by rfl) released).trans ?_
  rw [if_pos unheard]

theorem frameReceived_garbled (released : s.rst = false) (on : s.link.state ≠ .off)
    (long : 5 ≤ burst.length)
    (bad : (frameOf burst).lengthOk burst.length = false ∨
      crc16 (burst.take (burst.length - 2)) ≠ fieldAt burst (burst.length - 2) 2) :
    exec (.frameReceived burst) s = .next (s.linkError s.station.val) := by
  have heard : ¬ (s.link.state = .off ∨ burst.length < 5) := not_or.mpr ⟨on, by omega⟩
  have caught : (!(frameOf burst).lengthOk burst.length) = true ∨ (!crcOk burst) = true :=
    bad.imp (by simp) (by simp [crcOk])
  refine (exec_released (by rfl) released).trans ?_
  rw [if_neg heard, if_pos caught]

/-- A valid frame that carries the own station number (R59). -/
theorem frameReceived_own {f : Frame} (released : s.rst = false) (on : s.link.state ≠ .off)
    (long : 5 ≤ burst.length) (frame : frameOf burst = f)
    (length : f.lengthOk burst.length = true) (crc : crcOk burst = true)
    (fields : f.fieldsOk = true) (own : f.source = s.station.val) :
    exec (.frameReceived burst) s = .next s.stationConflict := by
  have heard : ¬ (s.link.state = .off ∨ burst.length < 5) := not_or.mpr ⟨on, by omega⟩
  refine (exec_released (by rfl) released).trans ?_
  rw [if_neg heard, frame,
    if_neg (by simp [length, crc]), if_neg (by simp [fields]), if_pos own]

/-- A SERVING ANNOUNCE as it is read back from its bytes (R56, R179). -/
theorem frameOf_announceBytes {station g backlog share ownerCount : Nat} {window : Bool}
    (near : station < 16) (gen : g < 65536) :
    frameOf (announceBytes station g .serving window backlog share ownerCount) =
      { kind := 1, source := station, generation := g, fifth := 2 } := by
  obtain ⟨-, kind, source, generation, state, -⟩ :=
    announce_layout station g .serving window backlog share ownerCount
  rw [Nat.mod_eq_of_lt (by omega)] at source
  rw [Nat.mod_eq_of_lt gen] at generation
  unfold frameOf
  rw [kind, source, generation, state]

/-- What a station conflict leaves of a link that is up (R55, R59). -/
theorem stationConflict_mutes (up : s.link.state = .listening ∨ s.link.state = .active) :
    Raised s s.stationConflict .stationConflict s.station.val ∧
      s.stationConflict.link = { s.link.cutOff with state := .mute } := by
  let told := (s.raise .stationConflict s.station).flushEvent
  have link : told.link = s.link :=
    ((raise_changes ..).trans (flushEvent_changes _)).2 .link (by decide)
  have muted : s.stationConflict = told.setLink { told.link.cutOff with state := .mute } :=
    if_pos (link ▸ up)
  rw [muted]
  exact ⟨raise_flushEvent_raised s .stationConflict s.station, by rw [← link]; rfl⟩

theorem announceBytes_conflicts {window : Bool} {g backlog share ownerCount : Nat}
    (released : s.rst = false) (up : s.link.state = .listening ∨ s.link.state = .active)
    (one : 1 ≤ g) (gen : g < 65536) :
    exec (.frameReceived (announceBytes s.station.val g .serving window backlog share ownerCount)) s
      = .next s.stationConflict := by
  have on : s.link.state ≠ .off := by
    rcases up with state | state <;> rw [state] <;> decide
  obtain ⟨length, -⟩ :=
    announce_layout s.station.val g .serving window backlog share ownerCount
  refine frameReceived_own released on (by rw [length]; decide)
    (frameOf_announceBytes s.station.isLt gen) (by rw [length]; rfl) (withCrc16_ok _) ?_ rfl
  simp [Frame.fieldsOk, Nat.ne_of_gt one]

/-- Settles O43: each burst is followed to the check that stops it. -/
theorem badFramesAndStationConflict : Obligations.BadFramesAndStationConflict := by
  unfold Obligations.BadFramesAndStationConflict
  intro s released
  refine ⟨fun burst unheard => frameReceived_unheard released unheard,
    fun burst on long bad => ⟨_, frameReceived_garbled released on long bad,
      linkError_changes .., raise_flushEvent_raised ..⟩, ?_⟩
  intro window g backlog share count up one gen _ _ _
  obtain ⟨raised, link⟩ := stationConflict_mutes up
  refine ⟨_, announceBytes_conflicts released up one gen, raised, ?_⟩
  rw [link]
  exact ⟨rfl, rfl, rfl, rfl, rfl, rfl, stationConflict_changes s⟩

end Sys2Proof.Proofs

/-! PROOFS. FORGET_STATION and its sweep (R64 to R66): settles O39. -/

namespace Sys2Proof.Proofs

open Sys2Proof.Machine Sys2Proof.Safety

variable {s : State} {r : Bytes} {i : Fin 16} {w : Sweep} {o : Owner} {tag : Nat}

/-! ### The request (R64) -/

/-- The three checks of a station number of the table, in their order. -/
theorem forgetRequest_station (tag : Nat) (i : Fin 16) (s : State) :
    forgetRequest tag i.val s =
      if i = s.station then s.answer 19 tag .badField (.forgetStation)
      else if s.link.sweep.isSome then s.answer 19 tag .busy (.forgetStation)
      else if (s.peer i).state = .live then s.answer 19 tag .peerLive (.forgetStation)
      else s.setLink { s.link with
        peers := s.link.peers.set i { s.peer i with state := .forgetting }
        sweep := some { station := i, cursor := none, removed := 0, tag } } :=
  dif_pos i.isLt

theorem forgetStation_taken (takes : Takes s 19 r) (parsed : parseNumber1 r = some i.val) :
    exec .forgetStation s = .next (forgetRequest (recordTag r) i.val s.dropHead) :=
  whenReleased_taken takes parsed

/-- A sweep is running (R64). -/
theorem forgetRequest_busy (foreign : i ≠ s.station) (running : s.link.sweep.isSome = true) :
    forgetRequest tag i.val s = s.answer 19 tag .busy (.forgetStation) := by
  rw [forgetRequest_station, if_neg foreign, if_pos running]

theorem forgetRequest_live (foreign : i ≠ s.station) (idle : s.link.sweep = none)
    (live : (s.peer i).state = .live) :
    forgetRequest tag i.val s = s.answer 19 tag .peerLive (.forgetStation) := by
  rw [forgetRequest_station, if_neg foreign, if_neg (by simp [idle]), if_pos live]

theorem forgetRequest_passes (foreign : i ≠ s.station) (idle : s.link.sweep = none)
    (silent : (s.peer i).state ≠ .live) :
    forgetRequest tag i.val s = s.setLink { s.link with
      peers := s.link.peers.set i { s.peer i with state := .forgetting }
      sweep := some { station := i, cursor := none, removed := 0, tag } } := by
  rw [forgetRequest_station, if_neg foreign, if_neg (by simp [idle]), if_neg silent]

/-! ### One visit (R65) -/

/-- A record without the contribution that the sweep removes. -/
def withoutStation (i : Fin 16) (o : Owner) : Owner :=
  { o with contributions := o.contributions.filter (·.station != i), overflow := false }

/-- The link behind a visit: the sweep has passed the record and counted what it found. -/
def visitedLink (k : Link) (w : Sweep) (o : Owner) : Link :=
  { k with
    visitOwed := false
    sweep := some { w with
      cursor := some o.id
      removed := w.removed + if o.contributions.any (·.station == w.station) then 1 else 0 } }

theorem sweepVisit_eq (s : State) (w : Sweep) (o : Owner) :
    s.sweepVisit w o =
      if o.contributions.any (·.station == w.station) then
        (s.setLink (visitedLink s.link w o)).touchOwner o.id (withoutStation w.station)
      else s.setLink (visitedLink s.link w o) := rfl

theorem forgetSweepVisit_due (released : s.rst = false) (running : s.link.sweep = some w)
    (next : s.sweepNext w = some o) (owed : s.link.visitOwed = true) :
    exec .forgetSweepVisit s = .next (s.sweepVisit w o) := by
  refine (exec_released (by rfl) released).trans ?_
  rw [running]
  dsimp only
  rw [next]
  dsimp only
  rw [if_pos owed]

theorem sweepVisit_link (s : State) (w : Sweep) (o : Owner) :
    (s.sweepVisit w o).link = visitedLink s.link w o := by
  rw [sweepVisit_eq]
  split
  · exact (touchOwner_changes ..).2 .link (by decide)
  · rfl

theorem sweepVisit_passes (absent : o.contributions.any (·.station == w.station) = false) :
    (s.sweepVisit w o).owners = s.owners := by
  rw [sweepVisit_eq, if_neg (by simp [absent])]
  rfl

theorem sweepVisit_removes (found : s.findOwner o.id = some o)
    (present : o.contributions.any (·.station == w.station) = true) :
    (s.sweepVisit w o).findOwner o.id = some (s.reevaluate (withoutStation w.station o)) := by
  have same : SameFigures s (s.setLink (visitedLink s.link w o)) := ⟨rfl, rfl, rfl⟩
  rw [sweepVisit_eq, if_pos present, ← same.reevaluate]
  exact findOwner_touchOwner _ found rfl

theorem sweepVisit_othersKept (s : State) (w : Sweep) (o : Owner) :
    OthersKept o.id s (s.sweepVisit w o) := by
  rw [sweepVisit_eq]
  split
  · exact touchOwner_othersKept _ fun _ => rfl
  · exact fun _ _ => rfl

/-! ### The end (R66) -/

theorem forgetSweepEnd_due (released : s.rst = false) (running : s.link.sweep = some w)
    (last : s.sweepNext w = none) (room : s.port.completions.length < 64) :
    exec .forgetSweepEnd s = .next (s.sweepEnd w) := by
  refine (exec_released (by rfl) released).trans ?_
  rw [running]
  dsimp only
  rw [if_pos ⟨by rw [last]; rfl, room⟩]

/-- A full completion queue holds the end back (R66). -/
theorem forgetSweepEnd_full (released : s.rst = false) (running : s.link.sweep = some w)
    (full : 64 ≤ s.port.completions.length) : exec .forgetSweepEnd s = .next s := by
  refine (exec_released (by rfl) released).trans ?_
  rw [running]
  dsimp only
  rw [if_neg fun ⟨_, room⟩ => absurd room (Nat.not_lt.mpr full)]

theorem sweepEnd_leaves (s : State) (w : Sweep) :
    (s.sweepEnd w).link = { s.link with
      peers := s.link.peers.set w.station Peer.reset, sweep := none, visitOwed := false } ∧
    Places s (s.sweepEnd w) (reply 19 w.tag .ok (.forgetStation w.station.val w.removed)) :=
  ⟨(answer_changes ..).2 .link (by decide), places_of_port rfl (answer_grows ..).places⟩

/-- Settles O39: the request by its checks, the sweep by its visit and its end. -/
theorem forgetStationSweepsTheTable : Obligations.ForgetStationSweepsTheTable := by
  unfold Obligations.ForgetStationSweepsTheTable
  refine ⟨fun s r i takes parsed => ?_, fun s w released running => ⟨?_, ?_, ?_⟩⟩
  · have run := forgetStation_taken takes parsed
    refine ⟨fun foreign busy => ?_, fun foreign idle live => ?_, fun foreign idle silent => ?_⟩
    · rw [run, forgetRequest_busy (s := s.dropHead) foreign busy]
      exact ⟨_, rfl, refused_changes, answered_alone (.refl _)⟩
    · rw [run, forgetRequest_live (s := s.dropHead) foreign idle live]
      exact ⟨_, rfl, refused_changes, answered_alone (.refl _)⟩
    · refine ⟨_, run, andThen (by decide) (within (by decide) (dropHead_changes s))
        (forgetRequest_changes ..), ?_⟩
      rw [forgetRequest_passes (s := s.dropHead) foreign idle silent]
      exact ⟨rfl, rfl, rfl⟩
  · intro o next found owed
    exact ⟨_, forgetSweepVisit_due released running next owed, sweepVisit_link s w o,
      sweepVisit_passes, sweepVisit_removes found, sweepVisit_othersKept s w o,
      sweepVisit_changes s w o⟩
  · intro last room
    obtain ⟨link, places⟩ := sweepEnd_leaves s w
    exact ⟨_, forgetSweepEnd_due released running last room, link, places, sweepEnd_changes s w⟩
  · exact forgetSweepEnd_full released running

end Sys2Proof.Proofs

/-! PROOFS. The announce timer and the stale deadline (R48, R49, R53, R63, R156): settles O40. -/

namespace Sys2Proof.Proofs

open Sys2Proof.Machine Sys2Proof.Safety

variable {s : State} {i : Fin 16} {d h : Nat}

/-! ### What the slots leave of the timer and of the peers -/

theorem takeLink_announceNext (l : Link) : (takeLink l).announceNext = l.announceNext := by
  simp only [takeLink, apply_ite Link.announceNext, ite_self]

theorem fillLink_announceNext (l : Link) : (fillLink l).announceNext = l.announceNext := by
  unfold fillLink
  split
  · split
    · rfl
    · rfl
    · rw [apply_ite Link.announceNext, ite_self]
  · rfl

theorem composeLink_announceNext (serving : Bool) (chosen : List (OwnerId × Nat)) (l : Link) :
    (composeLink serving chosen l).announceNext = l.announceNext := by
  rw [composeLink, apply_ite Link.announceNext, ite_self]

/-- The slots of a link served at an expiry (R49, R53 to R55). -/
def servedLink (serving : Bool) (chosen : List (OwnerId × Nat)) (l : Link) : Link :=
  takeLink (composeLink serving chosen (fillLink l))

/-- Serving the slots keeps the link state, the timer and the peers. -/
theorem servedLink_keeps (serving : Bool) (chosen : List (OwnerId × Nat)) (l : Link) :
    let m := servedLink serving chosen l
    m.state = l.state ∧ m.announceNext = l.announceNext ∧ m.peers = l.peers := by
  obtain ⟨filled, -, -, filledPeers⟩ := slots_keep serving chosen l (fillLink l) (by simp)
  obtain ⟨composed, -, -, composedPeers⟩ := slots_keep serving chosen (fillLink l)
    (composeLink serving chosen (fillLink l)) (by simp)
  obtain ⟨taken, -, -, takenPeers⟩ := slots_keep serving chosen
    (composeLink serving chosen (fillLink l)) (servedLink serving chosen l) (by simp [servedLink])
  refine ⟨taken.trans (composed.trans filled), ?_,
    takenPeers.trans (composedPeers.trans filledPeers)⟩
  rw [servedLink, takeLink_announceNext, composeLink_announceNext, fillLink_announceNext]

/-- An expiry counted in LISTENING: the second makes the link ACTIVE (R48). -/
def countedLink (l : Link) : Link :=
  { l with expiries := l.expiries + 1
           state := if 2 ≤ l.expiries + 1 then .active else .listening }

theorem announceSlots_uncounted (awake : s.link.state ≠ .listening) : s.announceSlots =
    if s.link.state = .active then s.fillAnnounce.composeUsage.takeSlot else s := by
  have same (u : State) : (if s.link.state = .listening then u else s) = s := if_neg awake
  unfold State.announceSlots
  dsimp only
  rw [same]

/-- In OFF and MUTE an expiry leaves the slots alone (R49). -/
theorem announceSlots_quiet (quiet : s.link.state = .off ∨ s.link.state = .mute) :
    s.announceSlots = s := by
  have asleep : s.link.state ≠ .listening ∧ s.link.state ≠ .active := by
    rcases quiet with state | state <;> rw [state] <;> decide
  rw [announceSlots_uncounted asleep.1, if_neg asleep.2]

/-- An expiry in LISTENING is counted, and then served if the link is ACTIVE (R48). -/
theorem announceSlots_listening (listening : s.link.state = .listening) :
    s.announceSlots = if 1 ≤ s.link.expiries then
        s.setLink (servedLink (s.part == .serving) (usageChoice s) (countedLink s.link))
      else s.setLink (countedLink s.link) := by
  let counted := s.setLink (countedLink s.link)
  have run : s.announceSlots =
      if counted.link.state = .active then counted.fillAnnounce.composeUsage.takeSlot
      else counted := by
    unfold State.announceSlots
    dsimp only
    rw [if_pos listening]
    rfl
  rw [run]
  by_cases second : 1 ≤ s.link.expiries
  · have active : counted.link.state = .active := if_pos (by omega)
    have served : counted.announceSlots = counted.fillAnnounce.composeUsage.takeSlot := by
      rw [announceSlots_uncounted (by rw [active]; decide), if_pos active]
    rw [if_pos active, if_pos second, ← served, announceSlots_active active]
    rfl
  · have still : counted.link.state = .listening := if_neg (by omega)
    rw [if_neg (by rw [still]; decide), if_neg second]

/-- In every link state an expiry keeps the timer and the peers. -/
theorem announceSlots_keeps (s : State) :
    s.announceSlots.link.announceNext = s.link.announceNext ∧
      s.announceSlots.link.peers = s.link.peers := by
  have served (m : Link) (timer : m.announceNext = s.link.announceNext)
      (peers : m.peers = s.link.peers) :
      let k := servedLink (s.part == .serving) (usageChoice s) m
      k.announceNext = s.link.announceNext ∧ k.peers = s.link.peers := by
    obtain ⟨-, timerKept, peersKept⟩ := servedLink_keeps (s.part == .serving) (usageChoice s) m
    exact ⟨timerKept.trans timer, peersKept.trans peers⟩
  cases state : s.link.state with
  | off => rw [announceSlots_quiet (.inl state)]; exact ⟨rfl, rfl⟩
  | mute => rw [announceSlots_quiet (.inr state)]; exact ⟨rfl, rfl⟩
  | active => rw [announceSlots_active state]; exact served _ rfl rfl
  | listening =>
    rw [announceSlots_listening state]
    split
    · exact served (countedLink s.link) rfl rfl
    · exact ⟨rfl, rfl⟩

/-! ### The expiry -/

theorem announceTimerExpiry_early (released : s.rst = false) (timer : s.link.announceNext = some d)
    (early : s.time.uptime < d) : exec .announceTimerExpiry s = .next s := by
  refine (exec_released (by rfl) released).trans ?_
  rw [timer]
  exact congrArg _ (if_neg fun passed => absurd (of_decide_eq_true passed) (Nat.not_le.mpr early))

theorem announceTimerExpiry_unset (released : s.rst = false) (timer : s.link.announceNext = none) :
    exec .announceTimerExpiry s = .next s := by
  refine (exec_released (by rfl) released).trans ?_
  rw [timer]

/-- The link in front of the slots: the next expiry alone is new (R49). -/
theorem reckoned_link (next : Nat) (s : State) :
    (reckoned next s).link = { s.link with announceNext := some next } :=
  (reckoned_changes next s).2 .link (by decide)

/-- The share is formed of the backlogs in front of the expiry (R156). -/
theorem reckoned_share (next : Nat) (s : State) :
    (reckoned next s).dup.share = shareOf s.cfg s.ownBacklog s.peerBacklog := by
  let base := (s.setLink { s.link with announceNext := some next }).recomputeShare
  obtain ⟨-, share, -⟩ := issuePass_keeps base.testAtRisk.flushEvent
  have flushed : base.testAtRisk.flushEvent.dup = base.testAtRisk.dup :=
    (flushEvent_changes _).2 .dup (by decide)
  have tested : base.testAtRisk.dup = base.dup := (testAtRisk_changes base).2 .dup (by decide)
  refine share.trans ?_
  rw [flushed, tested]
  rfl

/-- What an expiry leaves of the link, by the state that it finds the link in (R48, R49). -/
theorem expiry_link (next : Nat) (s : State) :
    let timed : Link := { s.link with announceNext := some next }
    let t := (reckoned next s).announceSlots
    (s.link.state = .listening → s.link.expiries = 0 → t.link = { timed with expiries := 1 }) ∧
    (s.link.state = .listening → 1 ≤ s.link.expiries → s.link.announceSlot = .empty →
      s.link.usageSlot = .empty →
      t.link.state = .active ∧ t.link.announceSlot = .held ∧ t.link.attempts = 0) ∧
    (s.link.state = .off ∨ s.link.state = .mute → t.link = timed) := by
  intro timed t
  have link : (reckoned next s).link = timed := reckoned_link next s
  refine ⟨fun listening zero => ?_, fun listening some announce usage => ?_, fun quiet => ?_⟩
  · have first := announceSlots_listening (s := reckoned next s) (by rw [link]; exact listening)
    have counted : countedLink timed = { timed with expiries := 1 } := by
      simp [countedLink, timed, zero, listening]
    rw [link, if_neg (by simp [timed, zero]), counted] at first
    exact congrArg State.link first
  · have second := announceSlots_listening (s := reckoned next s) (by rw [link]; exact listening)
    rw [link, if_pos some] at second
    have active : (countedLink timed).state = .active := if_pos (Nat.succ_le_succ some)
    obtain ⟨slot, -, -, -, taken⟩ := expiry_slots (serving := (reckoned next s).part == .serving)
      (chosen := usageChoice (reckoned next s)) active
    have noAnnounce : (countedLink timed).announceSlot = .empty := announce
    have noUsage : (countedLink timed).usageSlot = .empty := usage
    obtain ⟨state, -⟩ := servedLink_keeps ((reckoned next s).part == .serving)
      (usageChoice (reckoned next s)) (countedLink timed)
    have whole : t.link = _ := congrArg State.link second
    rw [whole]
    exact ⟨state.trans active, slot.trans (if_neg (by simp [noUsage])),
      (taken (by simp [noAnnounce]) (by simp [noUsage])).1⟩
  · have same := announceSlots_quiet (s := reckoned next s) (by rw [link]; exact quiet)
    exact (congrArg State.link same).trans link

/-! ### The stale deadline (R63) -/

theorem peerStaleDeadline_idle (released : s.rst = false) (silent : (s.peer i).state ≠ .live) :
    exec (.peerStaleDeadline i) s = .next s := by
  refine (exec_released (by rfl) released).trans ?_
  rw [State.staleDeadline, if_neg silent]
  rfl

/-- A LIVE peer at its deadline, or before it. -/
theorem peerStaleDeadline_live (released : s.rst = false) (live : (s.peer i).state = .live)
    (heard : (s.peer i).heard = some h) :
    exec (.peerStaleDeadline i) s = .next (
      if h + s.cfg.staleMultiple * (s.cfg.announceInterval * 1000) ≤ s.time.uptime then
        s.putPeer i { s.peer i with state := .stale }
      else s) := by
  have deadline : s.staleDeadline (s.peer i) = some (h + s.staleLimit) := by
    rw [State.staleDeadline, if_pos live, heard]
    rfl
  refine (exec_released (by rfl) released).trans ?_
  rw [deadline]
  exact congrArg _ (if_congr decide_eq_true_iff rfl rfl)

/-- Settles O40: the figures in front of the slots, the slots by the link state. -/
theorem announceTimerAndStaleDeadline : Obligations.AnnounceTimerAndStaleDeadline := by
  unfold Obligations.AnnounceTimerAndStaleDeadline
  intro s released
  refine ⟨announceTimerExpiry_unset released, fun d timer =>
    ⟨announceTimerExpiry_early released timer, fun due => ?_⟩, fun i =>
    ⟨peerStaleDeadline_idle released, fun h live heard => ?_⟩⟩
  · let next := d + s.cfg.announceInterval * 1000
    have run := announceTimerExpiry_due released timer due
    have link := reckoned_link next s
    obtain ⟨timerKept, peersKept⟩ := announceSlots_keeps (reckoned next s)
    have share : (reckoned next s).announceSlots.dup = (reckoned next s).dup :=
      (announceSlots_changes _).2 .dup (by decide)
    exact ⟨_, run, announceTimer_changes run, timerKept.trans (by rw [link]),
      (congrArg Duplication.share share).trans (reckoned_share next s),
      peersKept.trans (by rw [link]), expiry_link next s⟩
  · have run := peerStaleDeadline_live released live heard
    refine ⟨fun early => ?_, fun due => ?_⟩
    · rw [run, if_neg (Nat.not_le.mpr early)]
    · rw [run, if_pos due]
      rfl

end Sys2Proof.Proofs

/-! PROOFS. The deletion step in its parts (R76, R78): the buckets that move to the next older
snapshot, the record that leaves the pool, the record that the volume is left with. -/

namespace Sys2Proof.Proofs

open Sys2Proof.Machine Sys2Proof.Safety

variable {s t u : State} {i j : Fin 8} {e e' n m k : Nat} {v w : Volume} {x y : Snapshot}
  {b : Bucket} {l : List Bucket}

/-! ### Snapshots by volume and epoch -/

theorem mem_snapsOf : x ∈ s.snapsOf i ↔ x ∈ s.cat.snaps ∧ x.slot = i := by
  simp [State.snapsOf]

theorem findSnap_isSome_iff :
    (s.findSnap i e).isSome = true ↔ ∃ x ∈ s.cat.snaps, x.slot = i ∧ x.epoch = e := by
  simp [State.findSnap]

theorem findSnap_of_snaps (same : t.cat.snaps = s.cat.snaps) (i : Fin 8) (e : Nat) :
    t.findSnap i e = s.findSnap i e := by
  unfold State.findSnap
  rw [same]

theorem snapsOf_of_snaps (same : t.cat.snaps = s.cat.snaps) (i : Fin 8) :
    t.snapsOf i = s.snapsOf i := by
  unfold State.snapsOf
  rw [same]

/-- A snapshot of a volume whose snapshots stand is found as it was. -/
theorem findSnap_of_snapsOf (same : t.snapsOf i = s.snapsOf i) (e : Nat) :
    t.findSnap i e = s.findSnap i e := by
  have inSlot : ∀ u : State, u.findSnap i e = (u.snapsOf i).find? (·.epoch == e) := by
    intro u
    unfold State.findSnap State.snapsOf
    rw [List.find?_filter]
    congr 1
    funext z
    rw [Bool.eq_iff_iff]
    simp
  rw [inSlot, inSlot, same]

theorem candidate_of_snapsOf (same : t.snapsOf i = s.snapsOf i) : t.candidate i = s.candidate i := by
  unfold State.candidate
  rw [same]

theorem greatest_mem {xs : List Nat} (h : greatest xs = some e) : e ∈ xs := by
  have fold : ∀ (xs : List Nat) (b : Option Nat),
      xs.foldl (fun m e => some (max (m.getD e) e)) b = some e → b = some e ∨ e ∈ xs := by
    intro xs
    induction xs with
    | nil => exact fun b h => .inl h
    | cons a as ih =>
      intro b h
      rcases ih _ h with found | later
      · have top : max (b.getD a) a = e := Option.some.inj found
        rcases max_choice (b.getD a) a with first | last
        · cases b with
          | none => exact .inr (by simp_all)
          | some b => exact .inl (congrArg some (first.symm.trans top))
        · exact .inr (by simp [← top, last])
      · exact .inr (List.mem_cons_of_mem _ later)
  exact (fold xs none h).resolve_left (by simp)

/-- The newest snapshot stands (R71). -/
theorem newest_stands (h : s.newest i = some e) : (s.findSnap i e).isSome = true := by
  obtain ⟨x, hx, epoch⟩ := List.mem_map.mp (greatest_mem h)
  obtain ⟨mem, slot⟩ := mem_snapsOf.mp hx
  exact findSnap_isSome_iff.mpr ⟨x, mem, slot, epoch⟩

/-- The next older snapshot stands, and is older (R71). -/
theorem nextOlder_stands (h : s.nextOlder i n = some e) :
    e < n ∧ (s.findSnap i e).isSome = true := by
  obtain ⟨mem, older⟩ := List.mem_filter.mp (greatest_mem h)
  obtain ⟨x, hx, epoch⟩ := List.mem_map.mp mem
  obtain ⟨mem, slot⟩ := mem_snapsOf.mp hx
  exact ⟨of_decide_eq_true older, findSnap_isSome_iff.mpr ⟨x, mem, slot, epoch⟩⟩

/-! ### A snapshot record changed -/

section Modify

variable {f : Snapshot → Snapshot}

theorem findSnap_modifySnap (names : ∀ z, (f z).slot = z.slot ∧ (f z).epoch = z.epoch) :
    (s.modifySnap i e f).findSnap j e' =
      (s.findSnap j e').map fun z => if z.slot = i ∧ z.epoch = e then f z else z := by
  unfold State.findSnap State.modifySnap
  dsimp only [State.setCat_cat]
  rw [List.find?_map]
  congr 2
  funext z
  rw [Function.comp_apply]
  split
  · rw [(names z).1, (names z).2]
  · rfl

theorem findSnap_modifySnap_self (names : ∀ z, (f z).slot = z.slot ∧ (f z).epoch = z.epoch)
    (found : s.findSnap i e = some x) : (s.modifySnap i e f).findSnap i e = some (f x) := by
  rw [findSnap_modifySnap names, found, Option.map_some, if_pos (findSnap_some found).2]

theorem findSnap_modifySnap_other (names : ∀ z, (f z).slot = z.slot ∧ (f z).epoch = z.epoch)
    (other : ¬(j = i ∧ e' = e)) : (s.modifySnap i e f).findSnap j e' = s.findSnap j e' := by
  rw [findSnap_modifySnap names]
  cases found : s.findSnap j e' with
  | none => rfl
  | some z =>
    obtain ⟨-, slot, epoch⟩ := findSnap_some found
    rw [Option.map_some, if_neg fun same => other ⟨slot.symm.trans same.1, epoch.symm.trans same.2⟩]

theorem snapsOf_modifySnap_other (names : ∀ z, (f z).slot = z.slot) (other : j ≠ i) :
    (s.modifySnap i e f).snapsOf j = s.snapsOf j := by
  unfold State.snapsOf State.modifySnap
  dsimp only [State.setCat_cat]
  induction s.cat.snaps with
  | nil => rfl
  | cons z zs ih =>
    rw [List.map_cons]
    by_cases here : z.slot = i ∧ z.epoch = e
    · have off : z.slot ≠ j := fun same => other (same.symm.trans here.1)
      rw [if_pos here, List.filter_cons_of_neg (by simpa [names] using off),
        List.filter_cons_of_neg (by simpa using off), ih]
    · rw [if_neg here, List.filter_cons, List.filter_cons, ih]

end Modify

/-! ### Blocks retained (R76) -/

/-- Buckets retained one after another for a snapshot. -/
def retainAll (kept : List Bucket) (i : Fin 8) (e n : Nat) (s : State) : State :=
  kept.foldl (fun u b => u.retainBlocks i e n b) s

theorem retainAll_cons (b : Bucket) (bs : List Bucket) (i : Fin 8) (e n : Nat) (s : State) :
    retainAll (b :: bs) i e n s = retainAll bs i e n (s.retainBlocks i e n b) := rfl

/-- What one bucket retained keeps, all of them keep. -/
theorem retainAll_keeps {P : State → Prop} (h : ∀ u b, P u → P (u.retainBlocks i e n b))
    (kept : List Bucket) (hs : P s) : P (retainAll kept i e n s) := foldl_keeps h kept s hs

/-- The catalogue behind a bucket retained. -/
theorem cat_retainBlocks (found : s.findSnap i e = some x) :
    (s.retainBlocks i e n b).cat =
      (s.modifySnap i e fun y => { y with buckets := (insertBucket b x.buckets).1 }).cat := by
  rw [retainBlocks_found found]
  dsimp only
  split <;> rfl

theorem retainBlocks_absent (absent : s.findSnap i e = none) : s.retainBlocks i e n b = s := by
  unfold State.retainBlocks
  rw [absent]

theorem findSnap_retainBlocks_self (found : s.findSnap i e = some x) :
    (s.retainBlocks i e n b).findSnap i e =
      some { x with buckets := (insertBucket b x.buckets).1 } :=
  (findSnap_of_snaps (congrArg Catalogue.snaps (cat_retainBlocks found)) i e).trans
    (findSnap_modifySnap_self (fun _ => ⟨rfl, rfl⟩) found)

theorem findSnap_retainBlocks_other (other : ¬(j = i ∧ e' = e)) :
    (s.retainBlocks i e n b).findSnap j e' = s.findSnap j e' := by
  cases found : s.findSnap i e with
  | none => rw [retainBlocks_absent found]
  | some x =>
    exact (findSnap_of_snaps (congrArg Catalogue.snaps (cat_retainBlocks found)) j e').trans
      (findSnap_modifySnap_other (fun _ => ⟨rfl, rfl⟩) other)

theorem snapsOf_retainBlocks_other (other : j ≠ i) :
    (s.retainBlocks i e n b).snapsOf j = s.snapsOf j := by
  cases found : s.findSnap i e with
  | none => rw [retainBlocks_absent found]
  | some x =>
    exact (snapsOf_of_snaps (congrArg Catalogue.snaps (cat_retainBlocks found)) j).trans
      (snapsOf_modifySnap_other (fun _ => rfl) other)

theorem vol_retainBlocks (s : State) (i j : Fin 8) (e n : Nat) (b : Bucket) :
    (s.retainBlocks i e n b).vol j = s.vol j := congrFun (retainBlocks_leaves s i e n b).1 j

theorem snapCount_retainBlocks (s : State) (i : Fin 8) (e n : Nat) (b : Bucket) :
    (s.retainBlocks i e n b).cat.snaps.length = s.cat.snaps.length := by
  cases found : s.findSnap i e with
  | none => rw [retainBlocks_absent found]
  | some x =>
    rw [cat_retainBlocks found]
    exact List.length_map ..

theorem insertAll_from (kept : List Bucket) (l : List Bucket) (m : Nat) :
    kept.foldl (fun a b => ((insertBucket b a.1).1, a.2 + (insertBucket b a.1).2.toNat)) (l, m) =
      ((insertAll kept l).1, m + (insertAll kept l).2) := by
  unfold insertAll
  induction kept generalizing l m with
  | nil => rfl
  | cons b bs ih =>
    rw [List.foldl_cons, List.foldl_cons, ih, ih _ (0 + _), Nat.zero_add, Nat.add_assoc]

theorem insertAll_cons (b : Bucket) (bs l : List Bucket) : insertAll (b :: bs) l =
    ((insertAll bs (insertBucket b l).1).1,
      (insertBucket b l).2.toNat + (insertAll bs (insertBucket b l).1).2) := by
  exact (insertAll_from bs (insertBucket b l).1 (0 + (insertBucket b l).2.toNat)).trans
    (by rw [Nat.zero_add])

/-- BUCKET_MERGE has been raised m times for a volume, and no other kind (R76, R174). -/
def Merged (s t : State) (volume m : Nat) : Prop :=
  (m = 0 → t.port.events = s.port.events) ∧
  (0 < m → t.port.events[EventKind.index .bucketMerge] =
    { flag := true, subject := volume,
      count := min (s.port.events[EventKind.index .bucketMerge].count + m) 255 })

theorem Merged.refl (s : State) (n : Nat) : Merged s s n 0 :=
  ⟨fun _ => rfl, fun some => absurd some (Nat.lt_irrefl 0)⟩

theorem Merged.trans (h : Merged s t n m) (g : Merged t u n k) : Merged s u n (m + k) := by
  refine ⟨fun none => ?_, fun some => ?_⟩
  · exact (g.1 (Nat.add_eq_zero_iff.mp none).2).trans (h.1 (Nat.add_eq_zero_iff.mp none).1)
  · rcases Nat.eq_zero_or_pos k with rfl | later
    · rw [g.1 rfl]
      exact h.2 some
    rw [g.2 later]
    rcases Nat.eq_zero_or_pos m with rfl | sooner
    · rw [h.1 rfl, Nat.zero_add]
    · rw [h.2 sooner]
      simp only [EventEntry.mk.injEq, true_and, and_true]
      omega

theorem merged_retainBlocks (found : s.findSnap i e = some x) :
    Merged s (s.retainBlocks i e n b) n (insertBucket b x.buckets).2.toNat := by
  rw [retainBlocks_found found]
  dsimp only
  split
  · rename_i merged
    rw [merged]
    exact ⟨fun none => absurd none (by decide), fun _ =>
      (raise_raised (s := s.modifySnap ..) .bucketMerge n)⟩
  · rename_i short
    rw [Bool.not_eq_true _ |>.mp short]
    exact ⟨fun _ => rfl, fun some => absurd some (by decide)⟩

/-- The receiver's list and the merges when buckets move to it (R76, R78). -/
theorem retainAll_receiver (kept : List Bucket) (found : s.findSnap i e = some x) :
    (retainAll kept i e n s).findSnap i e =
      some { x with buckets := (insertAll kept x.buckets).1 } ∧
    Merged s (retainAll kept i e n s) n (insertAll kept x.buckets).2 := by
  induction kept generalizing s x with
  | nil => exact ⟨found, .refl s n⟩
  | cons b bs ih =>
    obtain ⟨list, merges⟩ := ih (findSnap_retainBlocks_self (n := n) (b := b) found)
    rw [retainAll_cons, insertAll_cons]
    exact ⟨list, (merged_retainBlocks found).trans merges⟩

/-! ### The parts of the step (R78) -/

theorem modifyVol_found (found : s.vol i = some v) (f : Volume → Volume) :
    s.modifyVol i f = s.putVol i (some (f v)) := by
  unfold State.modifyVol
  rw [found]

/-- The buckets of a snapshot that move to the next older one when it is deleted. -/
def keptBuckets (s : State) (i : Fin 8) (x : Snapshot) : List Bucket :=
  movedBuckets (s.nextOlder i x.epoch) x.buckets

/-- The blocks that its deletion frees. -/
def freedBlocks (s : State) (i : Fin 8) (x : Snapshot) : Nat :=
  bucketTotal x.buckets - bucketTotal (keptBuckets s i x)

/-- The state in which the buckets have moved. -/
def bucketsMoved (s : State) (i : Fin 8) (v : Volume) (x : Snapshot) : State :=
  retainAll (keptBuckets s i x) i ((s.nextOlder i x.epoch).getD 0) v.id s

/-- The snapshot of a volume with an epoch leaves the pool. -/
def dropSnap (s : State) (i : Fin 8) (e : Nat) : State :=
  s.setCat { s.cat with snaps := s.cat.snaps.filter fun y => !(y.slot == i && y.epoch == e) }

/-- The volume record with blocks freed, settled by R70. -/
def freedVolume (v : Volume) (n : Nat) : Volume := { v with retained := v.retained - n }.settle

theorem bucketsMoved_vol (s : State) (i : Fin 8) (v : Volume) (x : Snapshot) (j : Fin 8) :
    (bucketsMoved s i v x).vol j = s.vol j :=
  retainAll_keeps (P := fun u => u.vol j = s.vol j)
    (fun u b same => (vol_retainBlocks u i j _ _ b).trans same) _ rfl

theorem deletionStep_run (found : s.vol i = some v) (x : Snapshot) :
    s.deletionStep i v x = ({
        freed := freedBlocks s i x, moved := bucketTotal (keptBuckets s i x)
        receiver := if bucketTotal (keptBuckets s i x) = 0 then 0
          else (s.nextOlder i x.epoch).getD 0 },
      (dropSnap (bucketsMoved s i v x) i x.epoch).putVol i
        (some (freedVolume v (freedBlocks s i x)))) := by
  have stands : (dropSnap (bucketsMoved s i v x) i x.epoch).vol i = some v :=
    (bucketsMoved_vol s i v x i).trans found
  exact Prod.ext rfl (modifyVol_found stands _)

theorem findSnap_dropSnap_self (s : State) (i : Fin 8) (e : Nat) :
    (dropSnap s i e).findSnap i e = none := by
  refine List.find?_eq_none.mpr fun z hz => ?_
  have := List.of_mem_filter hz
  simpa [imp_iff_not_or] using this

theorem findSnap_dropSnap_other (other : ¬(j = i ∧ e' = e)) :
    (dropSnap s i e).findSnap j e' = s.findSnap j e' := by
  unfold dropSnap State.findSnap
  dsimp only [State.setCat_cat]
  rw [List.find?_filter]
  congr 1
  funext z
  have apart (slot : z.slot = j) (epoch : z.epoch = e') : ¬(z.slot = i ∧ z.epoch = e) :=
    fun same => other ⟨slot.symm.trans same.1, epoch.symm.trans same.2⟩
  rw [Bool.eq_iff_iff]
  simp only [Bool.and_eq_true, Bool.not_eq_true', Bool.and_eq_false_imp, beq_iff_eq,
    beq_eq_false_iff_ne, decide_eq_true_eq]
  exact ⟨And.right, fun found => ⟨fun slot epoch => apart found.1 found.2 ⟨slot, epoch⟩, found⟩⟩

theorem snapsOf_dropSnap_other (other : j ≠ i) : (dropSnap s i e).snapsOf j = s.snapsOf j := by
  unfold dropSnap State.snapsOf
  dsimp only [State.setCat_cat]
  rw [List.filter_filter]
  refine List.filter_congr fun z _ => ?_
  by_cases here : z.slot = j
  · have off : z.slot ≠ i := fun same => other (here.symm.trans same)
    simp [here, other]
  · simp [here]

end Sys2Proof.Proofs

/-! PROOFS. The retained counts (R70 to R72): each volume counts the blocks of its snapshots, whose
epochs are distinct and lie below its open epoch. -/

namespace Sys2Proof.Proofs

open Sys2Proof.Machine Sys2Proof.Safety

/-! ### Counts and snapshots -/

/-- What the retained counts read of a volume. -/
structure VolCount where
  retained : Nat
  openEpoch : Nat

/-- What they read of a snapshot. -/
structure SnapCount where
  slot : Fin 8
  epoch : Nat
  blocks : Nat

section Retention

variable {vs : Fin 8 → Option VolCount} {zs : List SnapCount} {i j : Fin 8} {e n : Nat}
  {v w : VolCount} {x y : SnapCount}

/-- The blocks that the snapshots in a slot hold. -/
def blocksAt (zs : List SnapCount) (i : Fin 8) : Nat :=
  ((zs.filter (·.slot == i)).map (·.blocks)).sum

/-- No two snapshots of a volume share an epoch (R71). -/
def Distinct (zs : List SnapCount) : Prop :=
  zs.Pairwise fun x y => ¬(x.slot = y.slot ∧ x.epoch = y.epoch)

/-- The retained counts agree with the snapshots. -/
structure Retention (vs : Fin 8 → Option VolCount) (zs : List SnapCount) : Prop where
  retained : ∀ i v, vs i = some v → v.retained = blocksAt zs i
  below : ∀ i v, vs i = some v → ∀ x ∈ zs, x.slot = i → x.epoch < v.openEpoch
  stray : ∀ i, vs i = none → ∀ x ∈ zs, x.slot ≠ i
  distinct : Distinct zs

theorem blocksAt_cons (x : SnapCount) (zs : List SnapCount) (i : Fin 8) :
    blocksAt (x :: zs) i = (if x.slot = i then x.blocks else 0) + blocksAt zs i := by
  unfold blocksAt
  by_cases here : x.slot = i
  · rw [List.filter_cons_of_pos (by simpa using here), if_pos here]
    rfl
  · rw [List.filter_cons_of_neg (by simpa using here), if_neg here, Nat.zero_add]

theorem blocksAt_append_singleton (zs : List SnapCount) (x : SnapCount) (i : Fin 8) :
    blocksAt (zs ++ [x]) i = blocksAt zs i + if x.slot = i then x.blocks else 0 := by
  induction zs with
  | nil => rw [List.nil_append, blocksAt_cons, Nat.add_comm]
  | cons y ys ih => rw [List.cons_append, blocksAt_cons, blocksAt_cons, ih, Nat.add_assoc]

/-- The snapshots of a volume without the one of an epoch. -/
def without (i : Fin 8) (e : Nat) (zs : List SnapCount) : List SnapCount :=
  zs.filter fun y => !(y.slot == i && y.epoch == e)

theorem mem_without : y ∈ without i e zs ↔ y ∈ zs ∧ ¬(y.slot = i ∧ y.epoch = e) := by
  simp [without, imp_iff_not_or]

theorem without_absent (absent : ∀ y ∈ zs, ¬(y.slot = i ∧ y.epoch = e)) : without i e zs = zs :=
  List.filter_eq_self.mpr fun y hy => by simpa [imp_iff_not_or] using absent y hy

/-- The blocks of the snapshot that leaves are those that its slot loses. -/
theorem blocksAt_without (distinct : Distinct zs) (mem : x ∈ zs) (j : Fin 8) :
    blocksAt zs j = blocksAt (without x.slot x.epoch zs) j + if x.slot = j then x.blocks else 0 := by
  induction zs with
  | nil => cases mem
  | cons y ys ih =>
    obtain ⟨first, rest⟩ := List.pairwise_cons.mp distinct
    rcases List.mem_cons.mp mem with rfl | later
    · have absent : ∀ y ∈ ys, ¬(y.slot = x.slot ∧ y.epoch = x.epoch) := fun y hy same =>
        first y hy ⟨same.1.symm, same.2.symm⟩
      have gone : without x.slot x.epoch (x :: ys) = ys :=
        (List.filter_cons_of_neg (by simp)).trans (without_absent absent)
      rw [gone, blocksAt_cons, Nat.add_comm]
    · have stays : without x.slot x.epoch (y :: ys) = y :: without x.slot x.epoch ys :=
        List.filter_cons_of_pos (by simpa [imp_iff_not_or] using first x later)
      rw [stays, blocksAt_cons, blocksAt_cons, ih rest later, Nat.add_assoc]

/-- The snapshot of a volume with an epoch holds n blocks more. -/
def grown (i : Fin 8) (e n : Nat) (x : SnapCount) : SnapCount :=
  if x.slot = i ∧ x.epoch = e then { x with blocks := x.blocks + n } else x

@[simp] theorem grown_slot (i : Fin 8) (e n : Nat) (x : SnapCount) :
    (grown i e n x).slot = x.slot := by
  unfold grown
  split <;> rfl

@[simp] theorem grown_epoch (i : Fin 8) (e n : Nat) (x : SnapCount) :
    (grown i e n x).epoch = x.epoch := by
  unfold grown
  split <;> rfl

theorem grown_other (other : ¬(x.slot = i ∧ x.epoch = e)) : grown i e n x = x := if_neg other

theorem map_grown_absent (absent : ∀ y ∈ zs, ¬(y.slot = i ∧ y.epoch = e)) :
    zs.map (grown i e n) = zs :=
  (List.map_congr_left fun y hy => grown_other (absent y hy)).trans (List.map_id' zs)

theorem map_grown_zero (i : Fin 8) (e : Nat) (zs : List SnapCount) :
    zs.map (grown i e 0) = zs := by
  refine (List.map_congr_left fun y _ => ?_).trans (List.map_id' zs)
  unfold grown
  split <;> rfl

theorem map_grown_add (i : Fin 8) (e m n : Nat) (zs : List SnapCount) :
    (zs.map (grown i e m)).map (grown i e n) = zs.map (grown i e (m + n)) := by
  rw [List.map_map]
  refine List.map_congr_left fun y _ => ?_
  by_cases here : y.slot = i ∧ y.epoch = e
  · simp [grown, here, Nat.add_assoc]
  · simp [grown, here]

theorem Distinct.map_grown (h : Distinct zs) (i : Fin 8) (e n : Nat) :
    Distinct (zs.map (grown i e n)) :=
  List.pairwise_map.mpr (h.imp fun apart => by simpa using apart)

/-- The blocks that join a snapshot are those that its slot gains. -/
theorem blocksAt_grown (distinct : Distinct zs) (mem : x ∈ zs) (n : Nat) (j : Fin 8) :
    blocksAt (zs.map (grown x.slot x.epoch n)) j = blocksAt zs j + if x.slot = j then n else 0 := by
  induction zs with
  | nil => cases mem
  | cons y ys ih =>
    obtain ⟨first, rest⟩ := List.pairwise_cons.mp distinct
    rw [List.map_cons, blocksAt_cons, blocksAt_cons, grown_slot]
    rcases List.mem_cons.mp mem with rfl | later
    · rw [map_grown_absent fun y hy same => first y hy ⟨same.1.symm, same.2.symm⟩,
        show grown x.slot x.epoch n x = { x with blocks := x.blocks + n } from if_pos ⟨rfl, rfl⟩]
      dsimp only
      split <;> omega
    · rw [ih rest later, grown_other (first x later), Nat.add_assoc]

/-! ### Snapshots made, retained, moved and deleted -/

/-- A record written for the volume in a slot. -/
theorem update_some (h : Function.update vs i (some w) j = some v) :
    (j = i ∧ v = w) ∨ (j ≠ i ∧ vs j = some v) := by
  by_cases here : j = i
  · subst here
    rw [Function.update_self] at h
    exact .inl ⟨rfl, (Option.some.inj h).symm⟩
  · rw [Function.update_of_ne here] at h
    exact .inr ⟨here, h⟩

theorem update_none (h : Function.update vs i (some w) j = none) : j ≠ i ∧ vs j = none := by
  by_cases here : j = i
  · subst here
    rw [Function.update_self] at h
    cases h
  · exact ⟨here, (Function.update_of_ne here ..).symm.trans h⟩

/-- A volume and the snapshots change together: the counts of the other slots stand. -/
theorem Retention.change {zs' : List SnapCount} (h : Retention vs zs) (distinct : Distinct zs')
    (stems : ∀ y ∈ zs', y.slot = i ∨ ∃ x ∈ zs, x.slot = y.slot ∧ x.epoch = y.epoch)
    (others : ∀ j, j ≠ i → blocksAt zs' j = blocksAt zs j)
    (retained : w.retained = blocksAt zs' i)
    (below : ∀ y ∈ zs', y.slot = i → y.epoch < w.openEpoch) :
    Retention (Function.update vs i (some w)) zs' := by
  refine ⟨fun j u hu => ?_, fun j u hu y hy slot => ?_, fun j hj y hy slot => ?_, distinct⟩
  · rcases update_some hu with ⟨rfl, rfl⟩ | ⟨other, hu⟩
    · exact retained
    · exact (h.retained j u hu).trans (others j other).symm
  · rcases update_some hu with ⟨rfl, rfl⟩ | ⟨other, hu⟩
    · exact below y hy slot
    · obtain here | ⟨x, hx, same, epoch⟩ := stems y hy
      · exact absurd (slot.symm.trans here) other
      · exact epoch ▸ h.below j u hu x hx (same.trans slot)
  · obtain ⟨other, none⟩ := update_none hj
    obtain here | ⟨x, hx, same, -⟩ := stems y hy
    · exact other (slot.symm.trans here)
    · exact h.stray j none x hx (same.trans slot)

/-- A snapshot joins under an epoch that is new to its volume (R74, R87). -/
theorem Retention.addSnap (h : Retention vs zs) (hv : vs x.slot = some v)
    (new : ∀ y ∈ zs, y.slot = x.slot → y.epoch ≠ x.epoch) (below : x.epoch < w.openEpoch)
    (opened : v.openEpoch ≤ w.openEpoch) (retained : w.retained = v.retained + x.blocks) :
    Retention (Function.update vs x.slot (some w)) (zs ++ [x]) := by
  have mem : ∀ {y}, y ∈ zs ++ [x] ↔ y ∈ zs ∨ y = x := by simp
  refine h.change ?_ (fun y hy => ?_) (fun j other => ?_) ?_ fun y hy slot => ?_
  · refine List.pairwise_append.mpr ⟨h.distinct, List.pairwise_singleton .., fun y hy z hz => ?_⟩
    obtain rfl := List.mem_singleton.mp hz
    exact fun same => new y hy same.1 same.2
  · rcases mem.mp hy with hy | rfl
    · exact .inr ⟨y, hy, rfl, rfl⟩
    · exact .inl rfl
  · rw [blocksAt_append_singleton, if_neg other.symm, Nat.add_zero]
  · rw [blocksAt_append_singleton, if_pos rfl, retained, h.retained _ v hv]
  · rcases mem.mp hy with hy | rfl
    · exact (h.below _ v hv y hy slot).trans_le opened
    · exact below

/-- Blocks join a snapshot and the retained count of its volume (R75). -/
theorem Retention.retain (h : Retention vs zs) (hv : vs x.slot = some v) (mem : x ∈ zs)
    (n : Nat) :
    Retention (Function.update vs x.slot (some { v with retained := v.retained + n }))
      (zs.map (grown x.slot x.epoch n)) := by
  refine h.change (h.distinct.map_grown ..) (fun y hy => ?_) (fun j other => ?_) ?_
    fun y hy slot => ?_
  · obtain ⟨z, hz, rfl⟩ := List.mem_map.mp hy
    exact .inr ⟨z, hz, by simp, by simp⟩
  · rw [blocksAt_grown h.distinct mem, if_neg other.symm, Nat.add_zero]
  · rw [blocksAt_grown h.distinct mem, if_pos rfl, ← h.retained _ v hv]
  · obtain ⟨z, hz, rfl⟩ := List.mem_map.mp hy
    rw [grown_slot] at slot
    rw [grown_epoch]
    exact h.below _ v hv z hz slot

/-- A snapshot leaves; of its blocks n pass to another one of its volume, and the others leave the
retained count (R78). -/
theorem Retention.delete (h : Retention vs zs) (hv : vs x.slot = some v) (mem : x ∈ zs)
    (fits : n ≤ x.blocks)
    (receiver : n = 0 ∨ e ≠ x.epoch ∧ ∃ y ∈ zs, y.slot = x.slot ∧ y.epoch = e) :
    Retention
      (Function.update vs x.slot (some { v with retained := v.retained - (x.blocks - n) }))
      (without x.slot x.epoch (zs.map (grown x.slot e n))) := by
  obtain ⟨stays, gained⟩ : x ∈ zs.map (grown x.slot e n) ∧ ∀ j,
      blocksAt (zs.map (grown x.slot e n)) j = blocksAt zs j + if x.slot = j then n else 0 := by
    rcases receiver with rfl | ⟨apart, y, hy, slot, rfl⟩
    · rw [map_grown_zero]
      exact ⟨mem, fun j => by split <;> rfl⟩
    · refine ⟨List.mem_map.mpr ⟨x, mem, grown_other fun same => apart same.2.symm⟩, fun j => ?_⟩
      rw [← slot]
      exact blocksAt_grown h.distinct hy n j
  have lost := blocksAt_without (h.distinct.map_grown x.slot e n) stays
  have kept : ∀ {y}, y ∈ without x.slot x.epoch (zs.map (grown x.slot e n)) →
      ∃ z ∈ zs, z.slot = y.slot ∧ z.epoch = y.epoch := by
    intro y hy
    obtain ⟨z, hz, rfl⟩ := List.mem_map.mp (mem_without.mp hy).1
    exact ⟨z, hz, by simp, by simp⟩
  refine h.change ((h.distinct.map_grown ..).filter _) (fun y hy => .inr (kept hy))
    (fun j other => ?_) ?_ fun y hy slot => ?_
  · have := lost j
    rw [gained, if_neg other.symm, if_neg other.symm] at this
    exact this.symm
  · have := lost x.slot
    rw [gained, if_pos rfl, if_pos rfl, ← h.retained _ v hv] at this
    show v.retained - (x.blocks - n) = _
    omega
  · obtain ⟨z, hz, same, epoch⟩ := kept hy
    exact epoch ▸ h.below _ v hv z hz (same.trans slot)

/-- A volume is loaded into a free slot with nothing retained (R86). -/
theorem Retention.loadVolume (h : Retention vs zs) (free : vs i = none) (empty : w.retained = 0) :
    Retention (Function.update vs i (some w)) zs := by
  have none : zs.filter (·.slot == i) = [] :=
    List.filter_eq_nil_iff.mpr fun y hy => by simpa using h.stray i free y hy
  refine ⟨fun j u hu => ?_, fun j u hu y hy slot => ?_, fun j hj => h.stray j (update_none hj).2,
    h.distinct⟩
  · rcases update_some hu with ⟨rfl, rfl⟩ | ⟨-, hu⟩
    · rw [blocksAt, none, empty]
      rfl
    · exact h.retained j u hu
  · rcases update_some hu with ⟨rfl, -⟩ | ⟨-, hu⟩
    · exact absurd slot (h.stray j free y hy)
    · exact h.below j u hu y hy slot

end Retention

end Sys2Proof.Proofs

/-! PROOFS. The operations of the model and the retained counts (R70 to R72). -/

namespace Sys2Proof.Proofs

open Sys2Proof.Machine Sys2Proof.Safety

variable {l : List Block} {s t u : State} {i : Fin 8} {e n : Nat} {c : Fin 4} {v w : Volume}
  {x y z : Snapshot}

/-- What the retained counts read of a volume record. -/
def countOf (v : Volume) : VolCount := { retained := v.retained, openEpoch := v.openEpoch }

/-- What the retained counts read of a snapshot record. -/
def snapCount (x : Snapshot) : SnapCount :=
  { slot := x.slot, epoch := x.epoch, blocks := bucketTotal x.buckets }

/-- The counts of the volumes, and the snapshots. -/
def volCounts (s : State) (i : Fin 8) : Option VolCount := (s.vol i).map countOf
def snapCounts (s : State) : List SnapCount := s.cat.snaps.map snapCount

/-- The retained counts of a state agree with its snapshots. -/
def RetentionOk (s : State) : Prop := Retention (volCounts s) (snapCounts s)

theorem blocksAt_snapCounts (s : State) (i : Fin 8) : blocksAt (snapCounts s) i = heldBlocks s i := by
  unfold blocksAt snapCounts heldBlocks State.snapsOf
  rw [List.filter_map, List.map_map]
  rfl

theorem volCounts_of (found : s.vol i = some v) : volCounts s i = some (countOf v) := by
  rw [volCounts, found, Option.map_some]

theorem retainedCounted_iff : RetainedCounted s ↔ RetentionOk s := by
  constructor
  · rintro ⟨counted, stray, distinct⟩
    refine ⟨fun j k hk => ?_, fun j k hk m hm slot => ?_, fun j hj m hm slot => ?_, ?_⟩
    · obtain ⟨v, found, rfl⟩ := Option.map_eq_some_iff.mp hk
      exact (counted j v found).1.trans (blocksAt_snapCounts s j).symm
    · obtain ⟨v, found, rfl⟩ := Option.map_eq_some_iff.mp hk
      obtain ⟨z, hz, rfl⟩ := List.mem_map.mp hm
      exact (counted j v found).2 z (mem_snapsOf.mpr ⟨hz, slot⟩)
    · obtain ⟨z, hz, rfl⟩ := List.mem_map.mp hm
      have here : z ∈ s.snapsOf j := mem_snapsOf.mpr ⟨hz, slot⟩
      rw [stray j (Option.map_eq_none_iff.mp hj)] at here
      cases here
    · exact List.pairwise_map.mpr distinct
  · intro h
    refine ⟨fun j v found => ⟨?_, fun z hz => ?_⟩, fun j free => ?_, List.pairwise_map.mp h.distinct⟩
    · exact (h.retained j _ (volCounts_of found)).trans (blocksAt_snapCounts s j)
    · obtain ⟨hz, slot⟩ := mem_snapsOf.mp hz
      exact h.below j _ (volCounts_of found) _ (List.mem_map_of_mem hz) slot
    · refine List.eq_nil_iff_forall_not_mem.mpr fun z hz => ?_
      obtain ⟨hz, slot⟩ := mem_snapsOf.mp hz
      exact h.stray j (Option.map_eq_none_iff.mpr free) _ (List.mem_map_of_mem hz) slot

/-! ### Operations that leave the counts -/

theorem retention_congr (h : RetentionOk s) (hv : volCounts t = volCounts s)
    (hz : snapCounts t = snapCounts s) : RetentionOk t := by
  unfold RetentionOk at *
  rwa [hv, hz]

theorem retention_of_cat (h : RetentionOk s) (cat : t.cat = s.cat) : RetentionOk t := by
  unfold RetentionOk volCounts snapCounts State.vol at *
  rwa [cat]

theorem retention_of_changes (hp : Block.cat ∉ l) (h : ChangesOnly l s t) (hs : RetentionOk s) :
    RetentionOk t := retention_of_cat hs (h.2 .cat hp)

theorem retention_setDup {d : Duplication} (h : RetentionOk s) : RetentionOk (s.setDup d) :=
  retention_of_cat h rfl

theorem retention_answer {kind tag : Nat} {st : Status} {b : Body} (h : RetentionOk s) :
    RetentionOk (s.answer kind tag st b) := retention_of_changes (by decide) (answer_changes ..) h

theorem retention_notice {b : Body} (h : RetentionOk s) : RetentionOk (s.notice n b) :=
  retention_of_cat h rfl

theorem retention_raise {k : EventKind} (h : RetentionOk s) : RetentionOk (s.raise k n) :=
  retention_of_cat h rfl

theorem retention_flushEvent (h : RetentionOk s) : RetentionOk s.flushEvent :=
  retention_of_changes (by decide) (flushEvent_changes _) h

theorem volCounts_putVol (i : Fin 8) (w : Volume) :
    volCounts (s.putVol i (some w)) = Function.update (volCounts s) i (some (countOf w)) := by
  funext j
  by_cases h : j = i
  · rw [h, Function.update_self, volCounts, vol_putVol_self, Option.map_some]
  · rw [Function.update_of_ne h, volCounts, vol_putVol_other s h, volCounts]

/-- A volume record is written with the counts that it had. -/
theorem retention_putVol (found : s.vol i = some v) (same : countOf w = countOf v)
    (h : RetentionOk s) : RetentionOk (s.putVol i (some w)) := by
  refine retention_congr h ?_ rfl
  rw [volCounts_putVol, same, ← volCounts_of found, Function.update_eq_self]

theorem retention_modifyVol {f : Volume → Volume} (same : ∀ v, countOf (f v) = countOf v)
    (h : RetentionOk s) : RetentionOk (s.modifyVol i f) := by
  unfold State.modifyVol
  split
  · exact h
  · rename_i v found
    exact retention_putVol found (same v) h

theorem snapCounts_modifySnap {f : Snapshot → Snapshot} (same : ∀ z, snapCount (f z) = snapCount z) :
    snapCounts (s.modifySnap i e f) = snapCounts s := by
  unfold snapCounts State.modifySnap
  refine (List.map_map ..).trans (List.map_congr_left fun z _ => ?_)
  rw [Function.comp_apply]
  split
  · exact same z
  · rfl

theorem retention_modifySnap {f : Snapshot → Snapshot} (same : ∀ z, snapCount (f z) = snapCount z)
    (h : RetentionOk s) : RetentionOk (s.modifySnap i e f) :=
  retention_congr h rfl (snapCounts_modifySnap same)

@[simp] theorem countOf_settle (v : Volume) : countOf v.settle = countOf v := by
  unfold Volume.settle
  split <;> rfl

/-! ### Retained lists -/

/-- A snapshot is known by its volume and its epoch (R71). -/
theorem snap_unique (distinct : Distinct (snapCounts s)) (hx : x ∈ s.cat.snaps)
    (hy : y ∈ s.cat.snaps) (slot : x.slot = y.slot) (epoch : x.epoch = y.epoch) : x = y := by
  have keys : (s.cat.snaps.map fun z => (z.slot, z.epoch)).Nodup :=
    List.pairwise_map.mpr ((List.pairwise_map.mp distinct).imp fun apart same =>
      apart (Prod.mk.injEq .. ▸ same))
  exact List.inj_on_of_nodup_map keys hx hy (Prod.ext slot epoch)

/-- Blocks retained join the snapshot that they are retained for (R76). -/
theorem snapCounts_retainBlocks {b : Bucket} (distinct : Distinct (snapCounts s))
    (found : s.findSnap i e = some x) :
    snapCounts (s.retainBlocks i e n b) = (snapCounts s).map (grown i e b.blocks) := by
  obtain ⟨hx, slot, epoch⟩ := findSnap_some found
  have each : ∀ z ∈ s.cat.snaps,
      snapCount (if z.slot = i ∧ z.epoch = e then
        { z with buckets := (insertBucket b x.buckets).1 } else z) =
        grown i e b.blocks (snapCount z) := by
    intro z hz
    by_cases here : z.slot = i ∧ z.epoch = e
    · obtain rfl := snap_unique distinct hz hx (here.1.trans slot.symm) (here.2.trans epoch.symm)
      rw [if_pos here]
      refine Eq.trans ?_ (if_pos here).symm
      refine congrArg (SnapCount.mk z.slot z.epoch) ((insertBucket_total ..).trans ?_)
      exact Nat.add_comm ..
    · rw [if_neg here]
      exact (grown_other here).symm
  have kept : snapCounts (s.modifySnap i e fun y => { y with
      buckets := (insertBucket b x.buckets).1 }) = (snapCounts s).map (grown i e b.blocks) := by
    unfold snapCounts State.modifySnap
    rw [List.map_map]
    exact (List.map_map ..).trans (List.map_congr_left each)
  rw [retainBlocks_found found]
  exact ite_keeps (P := fun u => snapCounts u = (snapCounts s).map (grown i e b.blocks))
    (fun _ => kept) fun _ => kept

theorem findSnap_retainBlocks_isSome {b : Bucket} {r : Nat} :
    ((s.retainBlocks i r n b).findSnap i e).isSome = (s.findSnap i e).isSome := by
  rw [Bool.eq_iff_iff, ← stands_iff, ← stands_iff, snapRoles_retain]

/-- Buckets retained one after another for a snapshot that stands (R78). -/
theorem snapCounts_retainAll (kept : List Bucket) (distinct : Distinct (snapCounts s))
    (stands : kept = [] ∨ (s.findSnap i e).isSome = true) :
    snapCounts (retainAll kept i e n s) =
      (snapCounts s).map (grown i e (bucketTotal kept)) := by
  induction kept generalizing s with
  | nil => exact (map_grown_zero ..).symm
  | cons b bs ih =>
    have here : (s.findSnap i e).isSome = true := stands.resolve_left (by simp)
    obtain ⟨x, found⟩ := Option.isSome_iff_exists.mp here
    have first := snapCounts_retainBlocks (n := n) (b := b) distinct found
    rw [retainAll_cons, ih (first ▸ distinct.map_grown ..)
      (.inr (findSnap_retainBlocks_isSome.trans here)), first, map_grown_add]
    rfl

/-- The retention side of RELEASE: what joins the newest snapshot joins the retained count (R75). -/
theorem releaseRetention_retention {birth m : Nat} (h : RetentionOk s) (found : s.vol i = some v) :
    RetentionOk (s.releaseRetention i v birth m).2.2 := by
  by_cases none : retainedBlocks s i v birth m = 0
  · rw [releaseRetention_none none]
    exact h
  obtain ⟨e, newest, run⟩ := releaseRetention_some (Nat.pos_of_ne_zero none)
  rw [run]
  dsimp only
  generalize retainedBlocks s i v birth m = kept
  obtain ⟨x, snap⟩ := Option.isSome_iff_exists.mp (newest_stands newest)
  obtain ⟨hx, rfl, rfl⟩ := findSnap_some snap
  have retained := h.retain (volCounts_of found) (List.mem_map_of_mem (f := snapCount) hx) kept
  have grew := snapCounts_retainBlocks (n := v.id) (b := { birth, blocks := kept }) h.distinct snap
  have vols : volCounts (s.retainBlocks x.slot x.epoch v.id { birth, blocks := kept }) = volCounts s :=
    funext fun j => congrArg (Option.map countOf) (vol_retainBlocks ..)
  unfold State.modifyVol
  rw [vol_retainBlocks, found]
  unfold RetentionOk
  rw [volCounts_putVol, vols]
  exact grew ▸ retained

theorem bucketTotal_filter_le (p : Bucket → Bool) (l : List Bucket) :
    bucketTotal (l.filter p) ≤ bucketTotal l :=
  (List.filter_sublist.map _).sum_le_sum fun _ _ => Nat.zero_le _

theorem movedBuckets_le (older : Option Nat) (l : List Bucket) :
    bucketTotal (movedBuckets older l) ≤ bucketTotal l := by
  cases older with
  | none => exact Nat.zero_le _
  | some p => exact bucketTotal_filter_le ..

theorem snapCounts_dropSnap (s : State) (i : Fin 8) (e : Nat) :
    snapCounts (dropSnap s i e) = without i e (snapCounts s) := by
  unfold snapCounts without
  rw [List.filter_map]
  rfl

/-- A deletion step: what does not move to the next older snapshot leaves the retained count (R78). -/
theorem deletionStep_retention (h : RetentionOk s) (found : s.vol x.slot = some v)
    (mem : x ∈ s.cat.snaps) : RetentionOk (s.deletionStep x.slot v x).2 := by
  let older := s.nextOlder x.slot x.epoch
  let kept := keptBuckets s x.slot x
  let moved := bucketsMoved s x.slot v x
  have receiver : kept = [] ∨ older.getD 0 ≠ x.epoch ∧
      (s.findSnap x.slot (older.getD 0)).isSome = true := by
    cases eq : older with
    | none => exact .inl (congrArg (movedBuckets · x.buckets) eq)
    | some p =>
      obtain ⟨lt, stands⟩ := nextOlder_stands eq
      exact .inr ⟨lt.ne, stands⟩
  have grew : snapCounts moved = (snapCounts s).map (grown x.slot (older.getD 0) (bucketTotal kept)) :=
    snapCounts_retainAll kept h.distinct (receiver.imp id And.right)
  have vols : volCounts moved = volCounts s := funext fun j =>
    congrArg (Option.map countOf) (bucketsMoved_vol ..)
  have deleted := h.delete (n := bucketTotal kept) (e := older.getD 0) (volCounts_of found)
    (List.mem_map_of_mem (f := snapCount) mem) (movedBuckets_le ..) (by
      rcases receiver with none | ⟨apart, stands⟩
      · exact .inl (by rw [none]; rfl)
      · obtain ⟨y, hy, slot, epoch⟩ := findSnap_isSome_iff.mp stands
        exact .inr ⟨apart, snapCount y, List.mem_map_of_mem hy, slot, epoch⟩)
  rw [deletionStep_run found]
  show Retention (volCounts (State.putVol ..)) (snapCounts (dropSnap moved x.slot x.epoch))
  rw [volCounts_putVol, show volCounts (dropSnap ..) = volCounts s from vols, freedVolume,
    countOf_settle, snapCounts_dropSnap, grew]
  exact deleted

end Sys2Proof.Proofs

/-! PROOFS. Every command keeps the retained counts (R70 to R72): settles O57. -/

namespace Sys2Proof.Proofs

open Sys2Proof.Machine Sys2Proof.Safety

variable {l : List Block} {s t u : State} {i : Fin 8} {e n : Nat} {c : Fin 4} {v w : Volume}
  {x : Context} {z : Snapshot}

/-! ### The catalogue -/

theorem appendCurrent_retention {a : Extent} (h : RetentionOk s) :
    RetentionOk (s.appendCurrent i a) := by
  unfold State.appendCurrent
  split
  · exact h
  · rename_i v found
    refine ite_keeps (fun _ => h) fun _ => ite_keeps (fun _ => ?_) fun _ => ?_
    · exact retention_putVol (w := { v with current := _ }) found rfl h
    · exact retention_putVol (w := { v with current := [], fullScan := true }) found rfl h

theorem appendExtent_retention {volume start length : Nat} (h : RetentionOk s) :
    RetentionOk (s.appendExtent volume start length) := by
  unfold State.appendExtent
  split
  · exact h
  · exact ite_keeps (fun _ => h) fun _ => appendCurrent_retention h

theorem evaluate_retention (i : Fin 8) (h : RetentionOk s) : RetentionOk (s.evaluate i) := by
  unfold State.evaluate
  generalize s.cat.snaps.length + 1 = rounds
  induction rounds generalizing s with
  | zero => exact h
  | succ rounds ih =>
    unfold evaluateRounds
    split
    · exact h
    rename_i v found
    refine ite_keeps (fun _ => retention_putVol (w := { v with expiryWaiting := false }) found rfl h)
      fun _ => ?_
    have reported : RetentionOk (s.putVol i (some
        { v with expiryWaiting := false, overReported := true })) := retention_putVol found rfl h
    split
    · exact ite_keeps (fun _ => reported) fun _ => retention_flushEvent (retention_raise reported)
    · rename_i z expiring
      obtain ⟨e, -, snap⟩ := Option.bind_eq_some_iff.mp expiring
      obtain ⟨mem, rfl, rfl⟩ := findSnap_some snap
      exact ite_keeps (fun _ => ih (retention_flushEvent (retention_notice
        (deletionStep_retention h found mem))))
        fun _ => retention_putVol (w := { v with expiryWaiting := true }) found rfl h

theorem evaluateIfOver_retention (i : Fin 8) (h : RetentionOk s) :
    RetentionOk (s.evaluateIfOver i) := by
  unfold State.evaluateIfOver
  split
  · exact h
  · exact ite_keeps (fun _ => evaluate_retention i h) fun _ => h

theorem evaluateFlagged_retention (i : Fin 8) (h : RetentionOk s) :
    RetentionOk (s.evaluateFlagged i) := by
  unfold State.evaluateFlagged
  split
  · exact h
  · exact ite_keeps (fun _ => evaluate_retention i h) fun _ => h

theorem evaluateWaiting_retention (h : RetentionOk s) : RetentionOk s.evaluateWaiting :=
  ite_keeps (fun _ => foldl_keeps (fun _ i hu => evaluateFlagged_retention i hu) _ _ h) fun _ => h

theorem takeRef_retention (h : RetentionOk s) : RetentionOk (s.takeRef i e) :=
  retention_modifySnap (fun _ => rfl) h

theorem giveRef_retention (h : RetentionOk s) : RetentionOk (s.giveRef i e) :=
  retention_modifySnap (fun _ => rfl) h

/-! ### The night -/

theorem issuePass_retention (h : RetentionOk s) : RetentionOk s.issuePass := by
  refine issuePass_invariant (fun u i v found hu => ?_) h
  unfold State.issueTicket
  split
  · exact hu
  · exact retention_of_cat (s := u.putVol i (some { v with
      send := _, outstanding := v.outstanding + 1 })) (retention_putVol found rfl hu) rfl

theorem issueIfFreed_retention (h : RetentionOk s) : RetentionOk (s.issueIfFreed n) :=
  ite_keeps (fun _ => issuePass_retention h) fun _ => h

theorem closeIfDone_retention (h : RetentionOk s) : RetentionOk s.closeIfDone := by
  unfold State.closeIfDone
  refine ite_keeps (fun _ => foldl_keeps (fun u i hu => ?_) _ _ (retention_of_cat h rfl)) fun _ => h
  split
  · exact hu
  · rename_i v found
    exact ite_keeps (fun _ => retention_raise (retention_putVol found rfl hu)) fun _ =>
      ite_keeps (fun _ => retention_raise (retention_putVol found rfl hu)) fun _ => hu

theorem openWindow_retention (h : RetentionOk s) : RetentionOk s.openWindow := by
  unfold State.openWindow
  refine retention_setDup (foldl_keeps (fun u i hu => ?_) _ _ (retention_setDup h))
  refine retention_modifyVol (fun v => ?_) hu
  split <;> rfl

theorem minuteChanged_retention {m : Nat} (h : RetentionOk s) : RetentionOk (s.minuteChanged m) := by
  unfold State.minuteChanged
  refine ite_keeps (fun _ => ?_) fun _ => h
  split
  · exact ite_keeps (fun _ => openWindow_retention h) fun _ => h
  · exact ite_keeps (fun _ => h) fun _ => closeIfDone_retention (retention_setDup h)
  · exact h

theorem placeCuts_retention (h : RetentionOk s) : RetentionOk s.placeCuts := by
  unfold State.placeCuts
  refine foldl_keeps (fun u i hu => ?_) _ _ h
  split
  · exact hu
  · rename_i v found
    exact ite_keeps (fun _ => retention_notice (retention_putVol (w :=
      { v with cutDue := false, cutDeadline := _ }) found rfl hu)) fun _ => hu

theorem afterMinute_retention (h : RetentionOk s) : RetentionOk s.afterMinute :=
  issuePass_retention (placeCuts_retention (retention_flushEvent h))

theorem testEnd_retention (h : RetentionOk s) : RetentionOk (s.testEnd i) := by
  unfold State.testEnd
  split
  · exact h
  · rename_i v found
    exact ite_keeps (fun _ => retention_putVol found rfl h) fun _ => h

theorem testAtRisk_retention (h : RetentionOk s) : RetentionOk s.testAtRisk := by
  unfold State.testAtRisk
  refine ite_keeps (fun _ => ?_) fun _ => h
  refine List.foldlRecOn (motive := fun acc : Nat × State => RetentionOk acc.2) _ _ h
    fun acc hacc a _ => ?_
  unfold riskStep
  split
  · rename_i v _ found
    split
    · exact retention_raise (retention_putVol (w := { v with atRisk := true }) found rfl hacc)
    · exact hacc
  · exact hacc

theorem dupEndStep_retention (i : Fin 8) (h : RetentionOk s) : RetentionOk (s.dupEndStep i) := by
  unfold State.dupEndStep
  split
  · exact h
  rename_i v found
  refine ite_keeps (fun _ => retention_flushEvent (closeIfDone_retention (evaluateIfOver_retention i
    (retention_notice ?_)))) fun _ => h
  split
  · rename_i b _
    exact retention_putVol (s := s.giveRef i b) found rfl (giveRef_retention h)
  · exact retention_putVol found rfl h

/-! ### Restore jobs -/

theorem freeContext_retention (h : RetentionOk s) : RetentionOk (s.freeContext c x) :=
  giveRef_retention (s := s.putContext c none) (retention_of_cat h rfl)

theorem placeCopies_retention (h : RetentionOk s) : RetentionOk s.placeCopies :=
  retention_of_changes (by decide) (placeCopies_changes s) h

theorem restoreEnds_retention (h : RetentionOk s) : RetentionOk s.restoreEnds := by
  unfold State.restoreEnds
  exact ite_keeps (fun _ => issuePass_retention (retention_of_cat h rfl))
    fun _ => retention_of_cat h rfl

theorem testJobEnd_retention (c : Fin 4) (h : RetentionOk s) : RetentionOk (s.testJobEnd c) :=
  retention_of_changes (by decide) (testJobEnd_changes ..) h

theorem restoreEndStep_retention (c : Fin 4) (h : RetentionOk s) :
    RetentionOk (s.restoreEndStep c) := by
  unfold State.restoreEndStep
  split
  · exact h
  refine ite_keeps (fun _ => retention_flushEvent (evaluateIfOver_retention _ (restoreEnds_retention
    (retention_notice (freeContext_retention ?_))))) fun _ => h
  split
  · exact retention_of_changes (by decide) (removeEntry_changes ..) h
  · exact h

theorem assemblyTimeout_retention (c : Fin 4) (h : RetentionOk s) :
    RetentionOk (s.assemblyTimeout c) := by
  unfold State.assemblyTimeout
  split
  · exact h
  · exact ite_keeps (fun _ => retention_flushEvent (evaluateIfOver_retention _ (retention_notice
      (freeContext_retention h)))) fun _ => h

theorem roomArrives_retention (h : RetentionOk s) : RetentionOk s.roomArrives := by
  have jobs := foldl_keeps (fun u c hu => restoreEndStep_retention c (assemblyTimeout_retention c hu))
    slots4 _ (retention_flushEvent h)
  exact issuePass_retention (placeCopies_retention (placeCuts_retention (evaluateWaiting_retention
    (foldl_keeps (fun u i hu => dupEndStep_retention i hu) slots8 _ jobs))))

/-! ### SNAPSHOT and the cut -/

/-- The new snapshot takes the open epoch, under which none stands, with an empty list (R74). -/
theorem makeSnapshot_retention {kind : SnapKind} {label : Nat} (found : s.vol i = some v)
    (h : RetentionOk s) : RetentionOk (s.makeSnapshot i v kind label) := by
  have added := h.addSnap (x := snapCount (s.newSnapshot i v kind label))
    (w := countOf { v with openEpoch := v.openEpoch + 1 }) (volCounts_of found)
    (fun y hy slot => (h.below i _ (volCounts_of found) y hy slot).ne) (Nat.lt_succ_self _)
    (Nat.le_succ _) rfl
  unfold RetentionOk State.makeSnapshot
  rw [volCounts_putVol]
  have snaps : snapCounts ((s.setCat { s.cat with
      snaps := s.cat.snaps ++ [s.newSnapshot i v kind label] }).putVol i
      (some { v with openEpoch := v.openEpoch + 1 })) =
      snapCounts s ++ [snapCount (s.newSnapshot i v kind label)] := List.map_append ..
  rw [snaps]
  exact added

theorem countOf_cutRecord (v : Volume) (e : Nat) :
    countOf (cutRecord v e) = countOf { v with openEpoch := e + 1 } := by
  unfold cutRecord Volume.cutLists
  split <;> rfl

theorem cutVolume_retention (found : s.vol i = some { v with openEpoch := e + 1 })
    (h : RetentionOk s) : RetentionOk (s.cutVolume i v e) := by
  have taken := takeRef_retention (i := i) (e := e) h
  have cut : ∀ {u : State}, u.vol = s.vol → RetentionOk u →
      RetentionOk (u.putVol i (some (cutRecord v e))) := fun same hu =>
    retention_putVol ((congrFun same i).trans found) (countOf_cutRecord v e) hu
  unfold State.cutVolume
  refine testEnd_retention (retention_of_cat (s := (match v.sendEpoch with
    | some old => (s.takeRef i e).giveRef i old
    | none => s.takeRef i e).putVol i (some (cutRecord v e))) ?_ rfl)
  split
  · exact cut rfl (giveRef_retention taken)
  · exact cut rfl taken

theorem snapshotRequest_retention (tag : Nat) (q : SnapshotReq) (s : State) (h : RetentionOk s) :
    RetentionOk (snapshotRequest tag q s) := by
  unfold snapshotRequest
  split
  · exact retention_answer h
  rename_i kind _
  refine ite_keeps (fun _ => retention_answer h) fun _ => ?_
  split
  · exact retention_answer h
  rename_i i v volume
  have found := findVol_some volume
  split
  · exact retention_answer h
  have made := makeSnapshot_retention (kind := kind) (label := q.label) found h
  refine ite_keeps (fun _ => issuePass_retention ?_) fun _ => retention_answer made
  have cut := dupEndStep_retention i (retention_answer (kind := 6) (tag := tag) (st := .ok)
    (b := .snapshot v.openEpoch) (cutVolume_retention (vol_putVol_self ..) made))
  exact ite_keeps (fun _ => evaluateIfOver_retention i cut) fun _ => cut

/-! ### The reload -/

theorem loadVolumeRequest_retention (tag : Nat) (q : LoadVolumeReq) (s : State)
    (h : RetentionOk s) : RetentionOk (loadVolumeRequest tag q s) := by
  unfold loadVolumeRequest
  refine ite_keeps (fun _ => retention_answer h) fun _ => ?_
  split
  · exact retention_answer h
  rename_i i free
  have empty : volCounts s i = none := by
    rw [volCounts, Option.map_eq_none_iff]
    simpa using List.find?_some free
  refine retention_answer ?_
  unfold RetentionOk
  rw [volCounts_putVol]
  exact h.loadVolume empty rfl

theorem loadSnapshotRequest_retention (tag : Nat) (q : LoadSnapshotReq) (s : State)
    (h : RetentionOk s) : RetentionOk (loadSnapshotRequest tag q s) := by
  unfold loadSnapshotRequest
  split
  · exact retention_answer h
  rename_i kind _
  refine ite_keeps (fun _ => retention_answer h) fun _ => ?_
  split
  · exact retention_answer h
  rename_i i v volume
  have found := findVol_some volume
  refine ite_keeps (fun _ => retention_answer h) fun right => ite_keeps (fun _ => retention_answer h)
    fun _ => retention_answer ?_
  obtain ⟨below, newer⟩ := not_or.mp right
  have newer := (not_or.mp newer).1
  have new : ∀ k ∈ snapCounts s, k.slot = i → k.epoch ≠ q.epoch := by
    intro k hk slot epoch
    obtain ⟨z, hz, rfl⟩ := List.mem_map.mp hk
    have : z.epoch ≤ (s.newest i).getD 0 :=
      greatest_ge (List.mem_map_of_mem (mem_snapsOf.mpr ⟨hz, slot⟩))
    exact newer (epoch ▸ this)
  have added := h.addSnap (x := snapCount (s.loadedSnapshot i v kind q))
    (w := countOf { v with retained := v.retained + bucketTotal q.buckets }) (volCounts_of found)
    new (Nat.lt_of_not_le below) le_rfl rfl
  have snaps : snapCounts ((s.setCat { s.cat with
      snaps := s.cat.snaps ++ [s.loadedSnapshot i v kind q] }).putVol i
      (some { v with retained := v.retained + bucketTotal q.buckets })) =
      snapCounts s ++ [snapCount (s.loadedSnapshot i v kind q)] := List.map_append ..
  unfold RetentionOk
  rw [volCounts_putVol, snaps]
  exact added

theorem removeBases_retention (h : RetentionOk s) : RetentionOk s.removeBases := by
  unfold State.removeBases
  refine foldl_keeps (fun u i hu => ?_) _ _ h
  exact retention_modifyVol (fun _ => rfl) hu

theorem loadDoneRequest_retention (tag generation : Nat) (s : State) (h : RetentionOk s) :
    RetentionOk (loadDoneRequest tag generation s) := by
  unfold loadDoneRequest
  refine ite_keeps (fun _ => retention_answer h) fun _ => ?_
  refine foldl_keeps (fun u i hu => evaluate_retention i hu) _ _ ?_
  refine retention_of_changes (by decide) (announceServing_changes _) (retention_answer ?_)
  exact retention_congr (removeBases_retention
    (s := (s.setLink { s.link with generation }).seedRng generation) (retention_of_cat h rfl)) rfl rfl

/-! ### The other requests -/

theorem commitRequest_retention (tag : Nat) (q : CommitReq) (s : State) (h : RetentionOk s) :
    RetentionOk (commitRequest tag q s) := by
  have finish : ∀ {u st charged used quota}, RetentionOk u →
      RetentionOk (u.finishCommit tag q st charged used quota) := fun hu =>
    issueIfFreed_retention (retention_answer (appendExtent_retention hu))
  unfold commitRequest
  refine ite_keeps (fun _ => retention_answer h) fun _ => ?_
  split
  · exact retention_answer h
  split
  · unfold commitLate
    split
    · exact finish h
    · dsimp only
      split
      · exact finish (retention_raise h)
      · rename_i made
        exact finish (retention_of_changes (by decide) (usedChanged_changes ..)
          (retention_of_changes (by decide) (touchOwner_changes ..)
            (retention_of_changes (by decide) (ensureOwner_changes _ _ _ made) (retention_raise h))))
  · exact ite_keeps (fun _ => retention_answer h) fun _ => finish
      (retention_of_changes (by decide) (usedChanged_changes ..)
        (retention_of_changes (by decide) (removeEntry_changes ..) h))

theorem releaseRequest_retention (tag : Nat) (q : ReleaseReq) (s : State) (h : RetentionOk s) :
    RetentionOk (releaseRequest tag q s) := by
  unfold releaseRequest
  refine ite_keeps (fun _ => retention_answer h) fun _ => ?_
  split
  · exact retention_answer h
  rename_i i v volume
  refine ite_keeps (fun _ => retention_answer h) fun _ => ?_
  have only := releaseQuota_changes s q.owner q.blocks
  have retained : RetentionOk ((s.releaseQuota q.owner q.blocks).releaseRetention i v q.birth
      q.blocks).2.2 :=
    releaseRetention_retention (retention_of_changes (by decide) only h)
      ((vol_of_changes (by decide) only i).trans (findVol_some volume))
  have noted := appendExtent_retention (volume := q.volume) (start := q.start) (length := q.length)
    retained
  exact issueIfFreed_retention (ite_keeps (fun _ => retention_answer noted)
    fun _ => evaluate_retention _ (retention_answer noted))

theorem deleteRequest_retention (tag : Nat) (q : DeleteReq) (s : State) (h : RetentionOk s) :
    RetentionOk (deleteRequest tag q s) := by
  unfold deleteRequest
  refine ite_keeps (fun _ => retention_answer h) fun _ => ?_
  split
  · exact retention_answer h
  rename_i i v volume
  split
  · exact retention_answer h
  rename_i z snap
  obtain ⟨mem, rfl, -⟩ := findSnap_some snap
  exact ite_keeps (fun _ => retention_answer (deletionStep_retention h (findVol_some volume) mem))
    fun _ => retention_answer h

theorem markRequest_retention {kind : Nat} {locked : State → Bool} {read : Snapshot → Bool}
    {write : Snapshot → Bool → Snapshot} (same : ∀ z b, snapCount (write z b) = snapCount z)
    (tag : Nat) (q : MarkReq) (s : State) (h : RetentionOk s) :
    RetentionOk (markRequest kind locked read write tag q s) := by
  unfold markRequest
  refine ite_keeps (fun _ => retention_answer h) fun _ => ?_
  split
  · exact retention_answer h
  split
  · exact retention_answer h
  rename_i i v _ _ z _
  refine ite_keeps (fun _ => retention_answer h) fun _ => ?_
  have marked := retention_modifySnap (i := i) (e := q.epoch) (fun z => same z (q.action == 0)) h
  exact ite_keeps (fun _ => evaluateIfOver_retention _ (retention_answer marked))
    fun _ => retention_answer marked

theorem lockRequest_retention (tag : Nat) (q : Unit) (s : State) (h : RetentionOk s) :
    RetentionOk (lockRequest tag q s) :=
  retention_answer (ite_keeps (fun _ => retention_congr h rfl rfl) fun _ => h)

theorem openRequest_retention (tag : Nat) (q : OpenReq) (s : State) (h : RetentionOk s) :
    RetentionOk (openRequest tag q s) := by
  unfold openRequest
  refine ite_keeps (fun _ => retention_answer h) fun _ => ?_
  split
  · rename_i i _ j _ _ _
    refine ite_keeps (fun _ => retention_answer h) fun _ => ?_
    split
    · exact retention_answer h
    · rename_i c _
      exact retention_answer (retention_of_cat (takeRef_retention (i := i) (e := q.epoch)
        (s := s.putContext c (some (s.newContext q i j))) (retention_of_cat h rfl)) rfl)
  · exact retention_answer h

theorem itemRequest_retention (tag : Nat) (q : ItemReq) (s : State) (h : RetentionOk s) :
    RetentionOk (itemRequest tag q s) := by
  unfold itemRequest
  refine ite_keeps (fun _ => retention_answer h) fun _ => ?_
  split
  · exact retention_answer h
  refine ite_keeps (fun _ => retention_answer h) fun _ => ?_
  split
  · exact evaluateIfOver_retention _ (retention_answer (freeContext_retention h))
  · exact retention_answer (retention_of_cat h rfl)

theorem startJob_retention {handle : Option Nat} (h : RetentionOk s) :
    RetentionOk (s.startJob c x handle) :=
  retention_of_changes (by decide) (restoreStarts_changes _) (retention_of_cat h rfl)

theorem goRequest_retention (tag : Nat) (q : JobReq) (s : State) (h : RetentionOk s) :
    RetentionOk (goRequest tag q s) := by
  unfold goRequest
  refine ite_keeps (fun _ => retention_answer h) fun _ => ?_
  split
  · exact retention_answer h
  rename_i c x job
  refine ite_keeps (fun _ => retention_answer h) fun _ => ite_keeps (fun _ => ?_) fun _ => ?_
  · exact evaluateIfOver_retention _ (retention_answer (freeContext_retention h))
  split
  · rename_i cls _
    have admitted := retention_of_changes (by decide) (admit_changes s x.owner cls
      (x.items.map (·.length)).sum (s.volumeId x.targetSlot) (.restore c)) h
    unfold goTracked
    exact ite_keeps (fun _ => placeCopies_retention (retention_answer (startJob_retention admitted)))
      fun _ => evaluateIfOver_retention _ (retention_answer (freeContext_retention admitted))
  · exact placeCopies_retention (retention_answer (startJob_retention h))

theorem cancelJobRequest_retention (tag : Nat) (q : JobReq) (s : State) (h : RetentionOk s) :
    RetentionOk (cancelJobRequest tag q s) := by
  unfold cancelJobRequest
  refine ite_keeps (fun _ => retention_answer h) fun _ => ?_
  split
  · exact retention_answer h
  split
  · exact evaluateIfOver_retention _ (retention_answer (freeContext_retention h))
  · exact restoreEndStep_retention _ (retention_answer (testJobEnd_retention _
      (retention_of_cat h rfl)))
  · exact restoreEndStep_retention _ (retention_answer (testJobEnd_retention _ h))

theorem copiedRequest_retention (tag : Nat) (q : CopiedReq) (s : State) (h : RetentionOk s) :
    RetentionOk (copiedRequest tag q s) := by
  unfold copiedRequest
  refine ite_keeps (fun _ => retention_answer h) fun _ => ?_
  split
  · exact retention_answer h
  split
  · exact retention_answer h
  refine ite_keeps (fun _ => retention_answer h) fun _ => issueIfFreed_retention ?_
  have copies : ∀ {u p} [Decidable p], RetentionOk u →
      RetentionOk (if p then State.placeCopies u else u) :=
    fun hu => ite_keeps (fun _ => placeCopies_retention hu) fun _ => hu
  refine copies (restoreEndStep_retention _ (retention_answer (testJobEnd_retention _ ?_)))
  exact ite_keeps (fun _ => appendCurrent_retention (retention_of_changes (by decide)
    (chargeRestore_changes ..) (retention_of_cat h rfl))) fun _ => retention_of_cat h rfl

theorem answerTicket_retention {k : Fin 16} {a : Ticket} {ok : Bool} (h : RetentionOk s) :
    RetentionOk (s.answerTicket k a ok) := by
  have same : ∀ (v : Volume) limit, countOf (v.answered a.work ok limit) = countOf v := by
    intro v limit
    unfold Volume.answered
    dsimp only
    split <;> rfl
  unfold State.answerTicket
  dsimp only
  split
  · exact retention_of_cat h rfl
  · rename_i v found
    have put : RetentionOk ((s.putTicket k none).putVol a.slot (some (v.answered a.work ok
        (s.profileOf v).retryLimit))) :=
      retention_putVol found (same ..) (retention_of_cat h rfl)
    exact ite_keeps (fun _ => retention_of_cat put rfl) fun _ => retention_of_cat put rfl

theorem sentRequest_retention (tag : Nat) (q : SentReq) (s : State) (h : RetentionOk s) :
    RetentionOk (sentRequest tag q s) := by
  unfold sentRequest
  refine ite_keeps (fun _ => retention_answer h) fun _ => ?_
  split
  · exact retention_answer h
  · exact issuePass_retention (retention_flushEvent (closeIfDone_retention (dupEndStep_retention _
      (testEnd_retention (retention_answer (answerTicket_retention h))))))

theorem duplicateNowRequest_retention (tag volume : Nat) (s : State) (h : RetentionOk s) :
    RetentionOk (duplicateNowRequest tag volume s) := by
  unfold duplicateNowRequest
  refine ite_keeps (fun _ => retention_answer h) fun _ => ?_
  split
  · exact retention_answer h
  rename_i i v volume
  refine ite_keeps (fun _ => retention_answer h) fun _ => ite_keeps (fun _ => retention_answer h)
    fun _ => ?_
  exact placeCuts_retention (retention_answer (retention_putVol (findVol_some volume) rfl h))

theorem clockRequest_retention (tag minute : Nat) (s : State) (h : RetentionOk s) :
    RetentionOk (clockRequest tag minute s) :=
  ite_keeps (fun _ => retention_answer h) fun _ => afterMinute_retention (retention_answer
    (minuteChanged_retention (retention_of_cat h rfl)))

theorem countOf_amendWrite (v : Volume) (value : Nat) (f : AmendField) :
    countOf (v.amendWrite value f) = countOf v := by
  cases f
  case reserveLimit => exact countOf_settle _
  all_goals rfl

theorem amendVolume_retention (tag : Nat) (q : AmendReq) (f : AmendField) (h : RetentionOk s) :
    RetentionOk (amendVolume tag q f s) := by
  unfold amendVolume
  split
  · refine ite_keeps (fun _ => retention_answer h) fun _ => ?_
    split
    · exact retention_answer h
    rename_i v found
    refine ite_keeps (fun _ => ite_keeps (fun _ => retention_answer h) fun _ => ?_)
      fun _ => retention_answer h
    have same : ∀ (b : Bool) m, countOf (if b then v.amendWrite m f else v) = countOf v := by
      intro b m
      cases b
      · rfl
      · exact countOf_amendWrite v m f
    exact ite_keeps (fun _ => evaluate_retention _ (retention_answer (retention_putVol found
      (same ..) h))) fun _ => retention_answer (retention_putVol found (same ..) h)
  · exact retention_answer h

theorem amendSnapshot_retention (tag : Nat) (q : AmendReq) (h : RetentionOk s) :
    RetentionOk (amendSnapshot tag q s) := by
  unfold amendSnapshot
  refine ite_keeps (fun _ => retention_answer h) fun _ => ?_
  split
  · exact retention_answer h
  split
  · exact retention_answer h
  · exact ite_keeps (fun _ => retention_answer (retention_modifySnap (fun _ => rfl) h))
      fun _ => retention_answer h

theorem amendRequest_retention (tag : Nat) (q : AmendReq) (s : State) (h : RetentionOk s) :
    RetentionOk (amendRequest tag q s) := by
  unfold amendRequest
  refine ite_keeps (fun _ => retention_answer h) fun _ => ?_
  split
  · exact retention_answer h
  · exact retention_of_changes (by decide) (amendOwner_changes ..) h
  · exact retention_of_changes (by decide) (amendOwner_changes ..) h
  · exact amendSnapshot_retention tag q h
  · exact amendVolume_retention tag q _ h

/-! ### Every command -/

theorem enterChecked_retention (h : RetentionOk s) : RetentionOk s.enterChecked :=
  ite_keeps (fun _ => retention_of_cat h rfl) fun _ => retention_flushEvent (retention_of_cat h rfl)

theorem reset_retention : RetentionOk State.reset := retainedCounted_iff.mp reset_retainedCounted

/-- Every command keeps the retained counts. -/
theorem exec_retention (c : Instr) (s t : State) (h : exec c s = .next t) (hs : RetentionOk s) :
    RetentionOk t := by
  have port : ∀ s t, ChangesOnly [.port] s t → RetentionOk s → RetentionOk t :=
    fun _ _ => retention_of_changes (by decide)
  by_cases framed : ∃ l, mayChange c = some l ∧ Block.cat ∉ l
  · obtain ⟨l, hl, hp⟩ := framed
    exact retention_of_changes hp (exec_changes c hl h) hs
  cases c <;> simp only [exec] at h
  case powerOnReset => cases h; exact retention_of_cat (s := State.reset) reset_retention rfl
  case rstAsserted => cases h; exact retention_of_cat hs rfl
  case configCheck =>
    refine whenReleased_keeps (ite_keeps (fun _ => ?_) fun _ => hs) h hs
    dsimp only
    split
    · exact enterChecked_retention (retention_of_cat hs rfl)
    · exact enterChecked_retention (retention_of_cat hs rfl)
  case restart =>
    refine request_keeps port (fun tag _ u _ => ?_) h hs
    exact enterChecked_retention (retention_answer (retention_of_cat (s := State.reset)
      reset_retention rfl))
  case loadDone => exact request_keeps port loadDoneRequest_retention h hs
  case read =>
    refine whenReleased_keeps ?_ h hs
    refine ite_keeps (fun _ => port _ _ (shiftStatus_changes ..) hs) fun _ => ?_
    split
    · exact port _ _ (shiftStatus_changes ..) hs
    · exact ite_keeps (fun _ => ite_keeps (fun _ => roomArrives_retention (retention_of_cat hs rfl))
        fun _ => retention_of_cat hs rfl) fun _ => port _ _ (shiftStatus_changes ..) hs
  case commit => exact request_keeps port commitRequest_retention h hs
  case release => exact request_keeps port releaseRequest_retention h hs
  case snapshot => exact request_keeps port snapshotRequest_retention h hs
  case deleteSnapshot => exact request_keeps port deleteRequest_retention h hs
  case expiryWaitingEvaluation => exact whenReleased_keeps (evaluateWaiting_retention hs) h hs
  case hold =>
    refine request_keeps port ?_ h hs
    exact markRequest_retention fun _ _ => rfl
  case pin =>
    refine request_keeps port ?_ h hs
    exact markRequest_retention fun _ _ => rfl
  case lockHolds => exact request_keeps port lockRequest_retention h hs
  case restoreOpen => exact request_keeps port openRequest_retention h hs
  case restoreItem => exact request_keeps port itemRequest_retention h hs
  case restoreGo => exact request_keeps port goRequest_retention h hs
  case restoreCancel => exact request_keeps port cancelJobRequest_retention h hs
  case copied => exact request_keeps port copiedRequest_retention h hs
  case assemblyTimeout => exact whenReleased_keeps (assemblyTimeout_retention _ hs) h hs
  case restoreEndStep => exact whenReleased_keeps (restoreEndStep_retention _ hs) h hs
  case sent => exact request_keeps port sentRequest_retention h hs
  case duplicateNow => exact request_keeps port duplicateNowRequest_retention h hs
  case clock => exact request_keeps port clockRequest_retention h hs
  case minuteAdvance =>
    refine whenReleased_keeps ?_ h hs
    split
    · exact ite_keeps (fun _ => afterMinute_retention (minuteChanged_retention
        (retention_of_cat hs rfl))) fun _ => hs
    · exact hs
  case windowClosed =>
    refine whenReleased_keeps ?_ h hs
    exact retention_flushEvent (closeIfDone_retention hs)
  case cutNotice => exact whenReleased_keeps (placeCuts_retention hs) h hs
  case cutTimeout =>
    refine whenReleased_keeps ?_ h hs
    split
    · exact hs
    · rename_i found
      exact ite_keeps (fun _ => retention_flushEvent (retention_raise (retention_putVol found rfl
        hs))) fun _ => hs
  case issuePass => exact whenReleased_keeps (issuePass_retention hs) h hs
  case tokenGain =>
    refine whenReleased_keeps ?_ h hs
    exact ite_keeps (fun _ => issuePass_retention (retention_of_cat hs rfl)) fun _ => hs
  case dupEndStep => exact whenReleased_keeps (dupEndStep_retention _ hs) h hs
  case amend => exact request_keeps port amendRequest_retention h hs
  case loadVolume => exact request_keeps port loadVolumeRequest_retention h hs
  case loadSnapshot => exact request_keeps port loadSnapshotRequest_retention h hs
  case announceTimerExpiry =>
    refine whenReleased_keeps ?_ h hs
    split
    · exact hs
    · exact ite_keeps (fun _ => retention_of_changes (by decide) (announceSlots_changes _)
        (issuePass_retention (retention_flushEvent (testAtRisk_retention
          (retention_of_changes (by decide) (recomputeShare_changes _) (retention_of_cat hs rfl))))))
        fun _ => hs
  all_goals exact absurd ⟨_, rfl, by decide⟩ framed

/-- Settles O57: every command keeps the counts, and a millisecond leaves the catalogue. -/
theorem stepKeepsRetainedCounts : Obligations.StepKeepsRetainedCounts := by
  intro s t hs h
  refine retainedCounted_iff.mpr (step_keeps (fun _ _ hs => retention_of_cat hs rfl) (fun s hs => ?_)
    exec_retention h (retainedCounted_iff.mp hs))
  unfold State.tick
  exact ite_keeps (fun _ => hs) fun _ => retention_of_cat hs rfl

end Sys2Proof.Proofs

/-! PROOFS. SNAPSHOT by the checks of R73, and the record that it makes (R74): settles O17. -/

namespace Sys2Proof.Proofs

open Sys2Proof.Machine Sys2Proof.Safety

section Snapshot

variable {s : State} {i : Fin 8} {v : Volume} {kind : SnapKind} {q : SnapshotReq} {tag : Nat}
  {st : Status}

/-- A SNAPSHOT behind its first two checks is answered by the first of the others that fails (R73). -/
theorem snapshotRequest_refuses (named : SnapKind.ofCode q.kind = some kind) (volume : q.volume ≠ 0)
    (found : s.findVol q.volume = some (i, v)) (fails : s.snapshotCheck v kind = some st) :
    snapshotRequest tag q s = s.answer 6 tag st (.snapshot) := by
  unfold snapshotRequest
  rw [named]
  dsimp only
  rw [if_neg volume, found]
  dsimp only
  rw [fails]

/-- One that passes them and makes no cut is answered with the epoch of its record (R74). -/
theorem snapshotRequest_makes (named : SnapKind.ofCode q.kind = some kind) (volume : q.volume ≠ 0)
    (found : s.findVol q.volume = some (i, v)) (passes : s.snapshotCheck v kind = none)
    (plain : kind ≠ .duplication) :
    snapshotRequest tag q s =
      (s.makeSnapshot i v kind q.label).answer 6 tag .ok (.snapshot v.openEpoch) := by
  unfold snapshotRequest
  rw [named]
  dsimp only
  rw [if_neg volume, found]
  dsimp only
  rw [passes]
  exact if_neg plain

theorem snapshotCheck_passes
    (owed : kind ≠ .duplication ∧ v.dup ≠ .cutPending ∨ kind = .duplication ∧ v.dup = .cutPending)
    (epoch : v.openEpoch ≠ 4294967295) (within : v.overLimit = false)
    (free : s.cat.snaps.length < 256) : s.snapshotCheck v kind = none := by
  unfold State.snapshotCheck
  rw [if_neg fun h => owed.elim (fun o => o.2 h.2) fun o => h.1 o.1,
    if_neg fun h => owed.elim (fun o => o.1 h.1) fun o => h.2 o.2, if_neg epoch,
    if_neg (by rw [within]; decide), if_neg (Nat.not_le.mpr free)]

/-- Settles O17: the record made, and the refusals check by check. -/
theorem snapshotTakesTheOpenEpoch : Obligations.SnapshotTakesTheOpenEpoch := by
  intro s r q kind i v takes parsed named volume found
  refine ⟨fun plain free epoch limit pool => ?_, fun status fails =>
    refused_taken rfl takes parsed (snapshotRequest_refuses (s := s.dropHead) named volume found
      fails)⟩
  let made := s.dropHead.makeSnapshot i v kind q.label
  let t := made.answer 6 (recordTag r) .ok (.snapshot v.openEpoch)
  have run : exec .snapshot s = .next t := (whenReleased_taken takes parsed).trans
    (congrArg _ (snapshotRequest_makes (s := s.dropHead) named volume found
      (snapshotCheck_passes (.inl ⟨plain, free⟩) epoch limit pool) plain))
  have making : ChangesOnly [.cat] s.dropHead made := makeSnapshot_changes ..
  have answering : ChangesOnly [.port] made t := answer_changes ..
  refine ⟨t, run, answering.2 .cat (by decide), answered_alone (.of_changes making (by decide)), ?_⟩
  exact andThen (by decide) (andThen (by decide) (within (by decide) (dropHead_changes s))
    making) answering

end Snapshot

end Sys2Proof.Proofs

/-! PROOFS. DELETE_SNAPSHOT (R78, R79, R99): what a deletion leaves of the snapshots, the volume and
the events. -/

namespace Sys2Proof.Proofs

open Sys2Proof.Machine Sys2Proof.Safety

variable {s t u : State} {i j : Fin 8} {e p : Nat} {v : Volume} {x y : Snapshot} {q : DeleteReq}
  {tag : Nat}

/-! ### What a deletion step leaves (R78) -/

theorem movedBuckets_eq (older : Option Nat) (l : List Bucket) :
    movedBuckets older l = l.filter fun b => older.any fun p => b.birth ≤ p := by
  cases older with
  | none => exact (List.filter_eq_nil_iff.mpr fun _ _ => by simp).symm
  | some p => rfl

theorem deletionStep_snaps (found : s.vol i = some v) (x : Snapshot) :
    (s.deletionStep i v x).2.cat.snaps = (dropSnap (bucketsMoved s i v x) i x.epoch).cat.snaps := by
  rw [deletionStep_run found]
  rfl

theorem deletionStep_events (found : s.vol i = some v) (x : Snapshot) :
    (s.deletionStep i v x).2.port.events = (bucketsMoved s i v x).port.events := by
  rw [deletionStep_run found]
  rfl

theorem deletionStep_vol_self (found : s.vol i = some v) (x : Snapshot) :
    (s.deletionStep i v x).2.vol i = some (freedVolume v (freedBlocks s i x)) := by
  rw [deletionStep_run found]
  exact vol_putVol_self ..

theorem deletionStep_vol_other (found : s.vol i = some v) (x : Snapshot) (other : j ≠ i) :
    (s.deletionStep i v x).2.vol j = s.vol j := by
  rw [deletionStep_run found]
  exact (vol_putVol_other _ other _).trans (bucketsMoved_vol ..)

theorem deletionStep_snapsOf_other (found : s.vol i = some v) (x : Snapshot) (other : j ≠ i) :
    (s.deletionStep i v x).2.snapsOf j = s.snapsOf j := by
  have moved : (bucketsMoved s i v x).snapsOf j = s.snapsOf j :=
    retainAll_keeps (P := fun u => u.snapsOf j = s.snapsOf j)
      (fun u b same => (snapsOf_retainBlocks_other other).trans same) _ rfl
  exact (snapsOf_of_snaps (deletionStep_snaps found x) j).trans
    ((snapsOf_dropSnap_other other).trans moved)

/-- The deleted snapshot is gone. -/
theorem deletionStep_gone (found : s.vol i = some v) (x : Snapshot) :
    (s.deletionStep i v x).2.findSnap i x.epoch = none :=
  (findSnap_of_snaps (deletionStep_snaps found x) i x.epoch).trans (findSnap_dropSnap_self ..)

/-- The next older snapshot receives the buckets that move, with BUCKET_MERGE for each merge. -/
theorem deletionStep_receiver (found : s.vol i = some v) (older : s.nextOlder i x.epoch = some p)
    (snap : s.findSnap i p = some y) :
    (s.deletionStep i v x).2.findSnap i p =
      some { y with buckets := (insertAll (keptBuckets s i x) y.buckets).1 } ∧
    Merged s (s.deletionStep i v x).2 v.id (insertAll (keptBuckets s i x) y.buckets).2 := by
  obtain ⟨list, merges⟩ := retainAll_receiver (n := v.id) (keptBuckets s i x) snap
  have moved : bucketsMoved s i v x = retainAll (keptBuckets s i x) i p v.id s := by
    unfold bucketsMoved
    rw [older]
    rfl
  have apart : ¬(i = i ∧ p = x.epoch) := fun same => (nextOlder_stands older).1.ne same.2
  constructor
  · rw [findSnap_of_snaps (deletionStep_snaps found x), findSnap_dropSnap_other apart, moved, list]
  · unfold Merged at *
    rw [deletionStep_events found, moved]
    exact merges

/-- Every other snapshot of the volume stands. -/
theorem deletionStep_others (found : s.vol i = some v) (apart : e ≠ x.epoch)
    (other : s.nextOlder i x.epoch ≠ some e) :
    (s.deletionStep i v x).2.findSnap i e = s.findSnap i e := by
  rw [findSnap_of_snaps (deletionStep_snaps found x),
    findSnap_dropSnap_other fun same => apart same.2]
  unfold bucketsMoved keptBuckets
  cases older : s.nextOlder i x.epoch with
  | none => rfl
  | some p =>
    have off : ¬(i = i ∧ e = p) := fun same => other (same.2 ▸ older)
    exact retainAll_keeps (P := fun u => u.findSnap i e = s.findSnap i e)
      (fun u b same => (findSnap_retainBlocks_other off).trans same) _ rfl

/-- A snapshot that stood for nothing does not appear. -/
theorem deletionStep_absent (found : s.vol i = some v) (x : Snapshot)
    (absent : s.findSnap j e = none) : (s.deletionStep i v x).2.findSnap j e = none := by
  rw [findSnap_of_snaps (deletionStep_snaps found x)]
  have moved : (bucketsMoved s i v x).findSnap j e = none :=
    retainAll_keeps (P := fun u => u.findSnap j e = none) (fun u b none => by
      rw [← Option.not_isSome_iff_eq_none, ← stands_iff, snapRoles_retain, stands_iff, none]
      decide) _ absent
  by_cases here : j = i ∧ e = x.epoch
  · rw [here.1, here.2]
    exact findSnap_dropSnap_self ..
  · rw [findSnap_dropSnap_other here, moved]

/-! ### The request (R79, R99) -/

theorem deleteRequest_held (volume : q.volume ≠ 0) (found : s.findVol q.volume = some (i, v))
    (snap : s.findSnap i q.epoch = some x) (held : x.deletable = false) :
    deleteRequest tag q s = s.answer 7 tag .held
      (.deleteSnapshot (hold := x.hold) (pin := x.pin) (refs := x.refs)
        (contexts := (s.restoresOf i x.epoch).length) (send := s.holdsSend i x.epoch)
        (base := s.holdsBase i x.epoch)) := by
  unfold deleteRequest
  rw [if_neg volume, found]
  dsimp only
  rw [snap]
  exact if_neg (by simp [held])

theorem deleteRequest_deletes (volume : q.volume ≠ 0) (found : s.findVol q.volume = some (i, v))
    (snap : s.findSnap i q.epoch = some x) (free : x.deletable = true) :
    deleteRequest tag q s = (s.deletionStep i v x).2.answer 7 tag .ok
      (.deleteSnapshot (freed := freedBlocks s i x) (moved := bucketTotal (keptBuckets s i x))
        (receiver := if bucketTotal (keptBuckets s i x) = 0 then 0
          else (s.nextOlder i x.epoch).getD 0)) := by
  unfold deleteRequest
  rw [if_neg volume, found]
  dsimp only
  rw [snap]
  refine (if_pos free).trans ?_
  rw [deletionStep_run (findVol_some found)]

theorem deletable_iff : x.deletable = true ↔ x.hold = false ∧ x.pin = false ∧ x.refs = 0 := by
  simp [Snapshot.deletable, and_assoc]

theorem events_answer (s : State) (kind tag : Nat) (st : Status) (b : Body) :
    (s.answer kind tag st b).port.events = s.port.events := events_flushEvent _

/-- DELETE_SNAPSHOT of a deletable snapshot, by the parts of its deletion step. -/
theorem deleteRequest_leaves {r : Bytes} (takes : Takes s 7 r) (parsed : parseDelete r = some q)
    (volume : q.volume ≠ 0) (found : s.findVol q.volume = some (i, v))
    (snap : s.findSnap i q.epoch = some x) (free : x.deletable = true) :
    let kept := keptBuckets s i x
    ∃ t, exec .deleteSnapshot s = .next t ∧
      Answered s t (reply 7 (recordTag r) .ok (.deleteSnapshot (freed := freedBlocks s i x)
        (moved := bucketTotal kept)
        (receiver := if bucketTotal kept = 0 then 0 else (s.nextOlder i x.epoch).getD 0))) ∧
      t.findSnap i q.epoch = none ∧ t.vol i = some (freedVolume v (freedBlocks s i x)) ∧
      (∀ p y, s.nextOlder i x.epoch = some p → s.findSnap i p = some y →
        t.findSnap i p = some { y with buckets := (insertAll kept y.buckets).1 } ∧
        Merged s t v.id (insertAll kept y.buckets).2) ∧
      (∀ e, e ≠ x.epoch → s.nextOlder i x.epoch ≠ some e → t.findSnap i e = s.findSnap i e) ∧
      (∀ j, j ≠ i → t.vol j = s.vol j ∧ t.snapsOf j = s.snapsOf j) ∧
      ChangesOnly [.cat, .port] s t := by
  intro kept
  let gone := (s.dropHead.deletionStep i v x).2
  let t := gone.answer 7 (recordTag r) .ok (.deleteSnapshot (freed := freedBlocks s i x)
    (moved := bucketTotal kept)
    (receiver := if bucketTotal kept = 0 then 0 else (s.nextOlder i x.epoch).getD 0))
  have run : exec .deleteSnapshot s = .next t := (whenReleased_taken takes parsed).trans
    (congrArg _ (deleteRequest_deletes (s := s.dropHead) volume found snap free))
  have stands : s.dropHead.vol i = some v := findVol_some found
  obtain ⟨-, -, epoch⟩ := findSnap_some snap
  have answering : ChangesOnly [.port] gone t := answer_changes ..
  have cat : t.cat = gone.cat := answering.2 .cat (by decide)
  have snaps : t.cat.snaps = gone.cat.snaps := congrArg Catalogue.snaps cat
  have vols := vol_of_changes (by decide) answering
  refine ⟨t, run, answered_alone (deletionStep_quiet ..), ?_, ?_, fun p y older receiver => ?_,
    fun e apart other => ?_, fun j other => ⟨?_, ?_⟩, ?_⟩
  · rw [findSnap_of_snaps snaps, ← epoch]
    exact deletionStep_gone stands x
  · exact (vols i).trans (deletionStep_vol_self stands x)
  · obtain ⟨list, merges⟩ := deletionStep_receiver stands older receiver
    rw [findSnap_of_snaps snaps]
    refine ⟨list, ?_⟩
    unfold Merged at *
    rw [events_answer]
    exact merges
  · exact (findSnap_of_snaps snaps ..).trans (deletionStep_others stands apart other)
  · exact (vols j).trans (deletionStep_vol_other stands x other)
  · exact (snapsOf_of_snaps snaps j).trans (deletionStep_snapsOf_other stands x other)
  · exact andThen (by decide) (andThen (by decide) (within (by decide) (dropHead_changes s))
      (deletionStep_changes ..)) answering

end Sys2Proof.Proofs

/-! PROOFS. The auto-expire evaluation by the table of R82, and the evaluation of the waiting volumes
in slot order (R83): settles O18. -/

namespace Sys2Proof.Proofs

open Sys2Proof.Machine Sys2Proof.Safety

variable {s t u : State} {i j : Fin 8} {e n fuel : Nat} {v w : Volume} {x y : Snapshot}

/-! ### The rounds of an evaluation (R82) -/

/-- The snapshot that a volume over its limit gives up next (R80, R82). -/
def expiring (s : State) (i : Fin 8) (v : Volume) : Option Snapshot :=
  (if v.autoExpire then s.candidate i else none).bind (s.findSnap i)

theorem candidate_stands (h : s.candidate i = some e) : (s.findSnap i e).isSome = true := by
  obtain ⟨k, hk, slot, epoch, -⟩ := candidate_free h
  exact stands_iff.mp ⟨k, hk, slot, epoch⟩

theorem expiring_none_iff :
    expiring s i v = none ↔ v.autoExpire = false ∨ s.candidate i = none := by
  unfold expiring
  cases auto : v.autoExpire with
  | false => simp
  | true =>
    cases candidate : s.candidate i with
    | none => simp
    | some e =>
      obtain ⟨x, snap⟩ := Option.isSome_iff_exists.mp (candidate_stands candidate)
      simp [snap]

theorem expiring_found (h : expiring s i v = some x) : s.findSnap i x.epoch = some x := by
  obtain ⟨e, -, snap⟩ := Option.bind_eq_some_iff.mp h
  rwa [(findSnap_some snap).2.2]

/-- The record of a volume that nothing more can be deleted from. -/
def reportedVolume (v : Volume) : Volume := { v with expiryWaiting := false, overReported := true }

/-- A deletion told by its EXPIRED notice (R82). -/
def expired (s : State) (i : Fin 8) (v : Volume) (x : Snapshot) : State :=
  ((s.deletionStep i v x).2.notice 4 (.expired v.id x.epoch (freedBlocks s i x))).flushEvent

theorem rounds_within (found : s.vol i = some v) (within : v.overLimit = false) :
    evaluateRounds (fuel + 1) i s = s.putVol i (some { v with expiryWaiting := false }) := by
  unfold evaluateRounds
  rw [found]
  exact if_pos (by rw [within]; rfl)

theorem rounds_over (found : s.vol i = some v) (above : v.overLimit = true) :
    evaluateRounds (fuel + 1) i s =
      match expiring s i v with
      | none => if v.overReported then s.putVol i (some (reportedVolume v))
        else ((s.putVol i (some (reportedVolume v))).raise .reserveOver v.id).flushEvent
      | some x => if s.room then evaluateRounds fuel i (expired s i v x)
        else s.putVol i (some { v with expiryWaiting := true }) := by
  conv_lhs => unfold evaluateRounds
  rw [found]
  refine (if_neg (by rw [above]; decide)).trans ?_
  cases h : expiring s i v with
  | none =>
    unfold expiring at h
    rw [h]
    rfl
  | some x =>
    unfold expiring at h
    rw [h]
    unfold expired
    dsimp only
    rw [deletionStep_run found]

/-- What the writes of the two marks, the raise of RESERVE_OVER and a deletion told keep, the
evaluation keeps. -/
theorem rounds_keep {P : State → Prop}
    (mark : ∀ u v told waiting, u.vol i = some v → P u →
      P (u.putVol i (some { v with overReported := told, expiryWaiting := waiting })))
    (report : ∀ u n, P u → P (u.raise .reserveOver n))
    (delete : ∀ u v x, u.vol i = some v → P u → P (u.deletionStep i v x).2)
    (tell : ∀ u n b, P u → P (u.notice n b)) (flush : ∀ u, P u → P u.flushEvent)
    (fuel : Nat) (s : State) (h : P s) : P (evaluateRounds fuel i s) := by
  induction fuel generalizing s with
  | zero => exact h
  | succ fuel ih =>
    cases found : s.vol i with
    | none =>
      unfold evaluateRounds
      rw [found]
      exact h
    | some v =>
      cases above : v.overLimit with
      | false =>
        rw [rounds_within found above]
        exact mark s v v.overReported false found h
      | true =>
        rw [rounds_over found above]
        have reported : P (s.putVol i (some (reportedVolume v))) := mark s v true false found h
        split
        · exact ite_keeps (fun _ => reported) fun _ => flush _ (report _ _ reported)
        · exact ite_keeps (fun _ => ih _ (flush _ (tell _ _ _ (delete _ _ _ found h))))
            fun _ => mark s v v.overReported true found h

/-! ### What an evaluation leaves of the rest -/

theorem flushEvent_cat (s : State) : s.flushEvent.cat = s.cat :=
  (flushEvent_changes s).2 .cat (by decide)

/-- The other volumes and their snapshots stand. -/
theorem rounds_others (other : j ≠ i) (fuel : Nat) (s : State) :
    (evaluateRounds fuel i s).vol j = s.vol j ∧
      (evaluateRounds fuel i s).snapsOf j = s.snapsOf j := by
  refine rounds_keep (P := fun u => u.vol j = s.vol j ∧ u.snapsOf j = s.snapsOf j)
    (fun u v _ _ _ h => ⟨(vol_putVol_other u other _).trans h.1, h.2⟩) (fun _ _ h => h)
    (fun u v x found h => ⟨(deletionStep_vol_other found x other).trans h.1,
      (deletionStep_snapsOf_other found x other).trans h.2⟩) (fun _ _ _ h => h)
    (fun u h => ?_) fuel s ⟨rfl, rfl⟩
  have only := flushEvent_changes u
  exact ⟨(vol_of_changes (by decide) only j).trans h.1,
    (snapsOf_of_snaps (congrArg Catalogue.snaps (flushEvent_cat u)) j).trans h.2⟩

theorem evaluateFlagged_others (other : j ≠ i) (s : State) :
    (s.evaluateFlagged i).vol j = s.vol j ∧ (s.evaluateFlagged i).snapsOf j = s.snapsOf j := by
  unfold State.evaluateFlagged
  split
  · exact ⟨rfl, rfl⟩
  · exact ite_keeps (P := fun u => u.vol j = s.vol j ∧ u.snapsOf j = s.snapsOf j)
      (fun _ => rounds_others other _ s) fun _ => ⟨rfl, rfl⟩

/-- RESERVE_OVER, once raised, stays raised. -/
theorem evaluateFlagged_raised (raised : s.port.events[EventKind.index .reserveOver].flag = true) :
    (s.evaluateFlagged i).port.events[EventKind.index .reserveOver].flag = true := by
  have evaluated : (s.evaluate i).port.events[EventKind.index .reserveOver].flag = true := by
    refine rounds_keep (P := fun u => u.port.events[EventKind.index .reserveOver].flag = true)
      (fun _ _ _ _ _ h => h) (fun u n _ => ?_) (fun u v x _ h => ?_) (fun _ _ _ h => h)
      (fun u h => ?_) _ s raised
    · rw [show _ = _ from raise_raised (s := u) .reserveOver n]
    · rw [show _ = _ from sameEvent_deletionStep (k := .reserveOver) (by decide) u i v x]
      exact h
    · rwa [events_flushEvent]
  unfold State.evaluateFlagged
  split
  · exact raised
  · exact ite_keeps (P := fun u => u.port.events[EventKind.index .reserveOver].flag = true)
      (fun _ => evaluated) fun _ => raised

/-- A snapshot that is gone stays gone, and the retained count does not rise. -/
theorem rounds_lower (found : s.vol i = some v) (gone : s.findSnap i e = none) (fuel : Nat) :
    (evaluateRounds fuel i s).findSnap i e = none ∧
      ∃ w, (evaluateRounds fuel i s).vol i = some w ∧ w.retained ≤ v.retained := by
  refine rounds_keep (P := fun u => u.findSnap i e = none ∧
      ∃ w, u.vol i = some w ∧ w.retained ≤ v.retained) (fun u z _ _ stands h => ⟨h.1, ?_⟩)
    (fun _ _ h => h) (fun u z x stands h => ⟨deletionStep_absent stands x h.1, ?_⟩)
    (fun _ _ _ h => h) (fun u h => ?_) fuel s ⟨gone, v, found, le_rfl⟩
  · obtain ⟨w, here, low⟩ := h.2
    cases here.symm.trans stands
    exact ⟨_, vol_putVol_self .., low⟩
  · obtain ⟨w, here, low⟩ := h.2
    cases here.symm.trans stands
    refine ⟨_, deletionStep_vol_self stands x, ?_⟩
    have : (freedVolume z (freedBlocks u i x)).retained = z.retained - freedBlocks u i x :=
      congrArg VolCount.retained (countOf_settle _)
    omega
  · rw [findSnap_of_snaps (congrArg Catalogue.snaps (flushEvent_cat u)),
      vol_of_changes (by decide) (flushEvent_changes u)]
    exact h

/-! ### The end of an evaluation (R82) -/

/-- The volume waits only for want of room; otherwise it is within its limit, or reported with
nothing left to delete. -/
def Settled (t : State) (i : Fin 8) : Prop :=
  ∃ w, t.vol i = some w ∧ (w.expiryWaiting = true → t.room = false) ∧
    (w.expiryWaiting = false → w.overLimit = false ∨
      (w.overReported = true ∧ (w.autoExpire = false ∨ t.candidate i = none)))

theorem room_of_grows (h : Grows s t) (full : s.room = false) : t.room = false := by
  obtain ⟨-, -, -, more, placed, -⟩ := h
  rw [← Bool.not_eq_true, room_iff] at full ⊢
  rw [placed, List.length_append]
  omega

/-- What places notices only, and leaves a volume and its snapshots, leaves the volume settled. -/
theorem Settled.kept (h : Settled s i) (vol : t.vol i = s.vol i) (snaps : t.snapsOf i = s.snapsOf i)
    (grows : Grows s t) : Settled t i := by
  obtain ⟨w, found, waits, done⟩ := h
  refine ⟨w, vol.trans found, fun waiting => room_of_grows grows (waits waiting), ?_⟩
  rwa [candidate_of_snapsOf snaps]

theorem expired_vol_self (found : s.vol i = some v) (x : Snapshot) :
    (expired s i v x).vol i = some (freedVolume v (freedBlocks s i x)) :=
  (vol_of_changes (by decide) (flushEvent_changes _) i).trans (deletionStep_vol_self found x)

theorem expired_snaps (s : State) (i : Fin 8) (v : Volume) (x : Snapshot) :
    (expired s i v x).cat.snaps = (s.deletionStep i v x).2.cat.snaps :=
  congrArg Catalogue.snaps (flushEvent_cat _)

/-- A deletion takes a snapshot out of the pool. -/
theorem expired_fewer (found : s.vol i = some v) (snap : s.findSnap i x.epoch = some x) :
    (expired s i v x).cat.snaps.length < s.cat.snaps.length := by
  obtain ⟨stands, many⟩ : ((bucketsMoved s i v x).findSnap i x.epoch).isSome = true ∧
      (bucketsMoved s i v x).cat.snaps.length = s.cat.snaps.length :=
    retainAll_keeps (P := fun u => (u.findSnap i x.epoch).isSome = true ∧
        u.cat.snaps.length = s.cat.snaps.length)
      (fun u b h => ⟨by rw [← stands_iff, snapRoles_retain, stands_iff]; exact h.1,
        (snapCount_retainBlocks u i _ _ b).trans h.2⟩) _ ⟨by rw [snap]; rfl, rfl⟩
  obtain ⟨z, mem, slot, epoch⟩ := findSnap_isSome_iff.mp stands
  rw [expired_snaps, deletionStep_snaps found, ← many]
  exact List.length_filter_lt_length_iff_exists.mpr ⟨z, mem, by simp [slot, epoch]⟩

/-- With more rounds than snapshots an evaluation comes to its end. -/
theorem rounds_settled (enough : s.cat.snaps.length < fuel) (found : s.vol i = some v) :
    Settled (evaluateRounds fuel i s) i := by
  induction fuel generalizing s v with
  | zero => cases enough
  | succ fuel ih =>
    cases above : v.overLimit with
    | false =>
      rw [rounds_within found above]
      exact ⟨_, vol_putVol_self .., fun waits => absurd waits Bool.false_ne_true, fun _ => .inl above⟩
    | true =>
      rw [rounds_over found above]
      cases next : expiring s i v with
      | none =>
        have reported : Settled (s.putVol i (some (reportedVolume v))) i :=
          ⟨_, vol_putVol_self .., fun waits => absurd waits Bool.false_ne_true,
            fun _ => .inr ⟨rfl, expiring_none_iff.mp next⟩⟩
        refine ite_keeps (P := (Settled · i)) (fun _ => reported) fun _ => ?_
        have only := (raise_changes (s.putVol i (some (reportedVolume v))) .reserveOver v.id).trans
          (flushEvent_changes _)
        exact reported.kept (vol_of_changes (by decide) only i)
          (snapsOf_of_snaps (congrArg Catalogue.snaps (only.2 .cat (by decide))) i)
          ((raise_grows ..).trans (flushEvent_grows _))
      | some x =>
        refine ite_keeps (P := (Settled · i)) (fun _ => ?_) fun full => ?_
        · have fewer := expired_fewer found (expiring_found next)
          exact ih (by omega) (expired_vol_self found x)
        · exact ⟨_, vol_putVol_self .., fun _ => Bool.not_eq_true _ |>.mp full,
            fun done => absurd done.symm Bool.false_ne_true⟩

/-! ### One volume by the table of R82 -/

/-- Over its limit with nothing to delete: the mark goes and RESERVE_OVER is raised once. -/
theorem evaluate_stuck (found : s.vol i = some v) (above : v.overLimit = true)
    (stuck : v.autoExpire = false ∨ s.candidate i = none) :
    (s.evaluate i).vol i = some (reportedVolume v) ∧
    (v.overReported = false →
      (s.evaluate i).port.events[EventKind.index .reserveOver].flag = true) ∧
    (if v.overReported = true then (s.evaluate i).port.events = s.port.events
      else Raised s (s.evaluate i) .reserveOver v.id) := by
  have run : s.evaluate i = _ := rounds_over found above
  rw [expiring_none_iff.mpr stuck] at run
  dsimp only at run
  let put := s.putVol i (some (reportedVolume v))
  have stands : put.vol i = some (reportedVolume v) := vol_putVol_self ..
  cases once : v.overReported with
  | true =>
    rw [run, if_pos once, if_pos rfl]
    exact ⟨stands, fun none => absurd none (by decide), rfl⟩
  | false =>
    rw [run, if_neg (by rw [once]; decide), if_neg (by decide)]
    have told : ∀ k : EventKind, SameEvent k (put.raise .reserveOver v.id)
        (put.raise .reserveOver v.id).flushEvent := fun _ => sameEvent_flushEvent _
    have raised : Raised s (put.raise .reserveOver v.id).flushEvent .reserveOver v.id :=
      raised_between (a := put) rfl (raise_raised ..) (told _)
    refine ⟨?_, fun _ => ?_, raised⟩
    · exact (vol_of_changes (by decide) (flushEvent_changes (put.raise ..)) i).trans stands
    · rw [show _ = _ from raised]

/-- Over its limit with a candidate and room: the deletion comes first (R80, R82). -/
theorem evaluate_expires (found : s.vol i = some v) (above : v.overLimit = true)
    (room : s.room = true) (next : expiring s i v = some x) :
    s.evaluate i = evaluateRounds s.cat.snaps.length i (expired s i v x) := by
  have run : s.evaluate i = _ := rounds_over found above
  rw [next] at run
  exact run.trans (if_pos room)

/-- What stands of the volume, the snapshot and the queue behind the deletion. -/
theorem evaluate_expires_leaves (found : s.vol i = some v) (above : v.overLimit = true)
    (room : s.room = true) (next : expiring s i v = some x) :
    let freed := freedBlocks s i x
    (s.evaluate i).findSnap i x.epoch = none ∧
    Places s (s.evaluate i) (noticeOf 4 (.expired v.id x.epoch freed)) ∧
    ∃ w, (s.evaluate i).vol i = some w ∧ w.retained ≤ v.retained - freed ∧
      (v.retained - freed ≤ v.limit → w = { v with
        retained := v.retained - freed, overReported := false, expiryWaiting := false }) := by
  intro freed
  have run := evaluate_expires found above room next
  have stands := expired_vol_self found x
  have count : (freedVolume v freed).retained = v.retained - freed :=
    congrArg VolCount.retained (countOf_settle _)
  have absent : (expired s i v x).findSnap i x.epoch = none :=
    (findSnap_of_snaps (expired_snaps ..) ..).trans (deletionStep_gone found x)
  obtain ⟨gone, w, here, low⟩ := rounds_lower stands absent s.cat.snaps.length
  rw [run]
  refine ⟨gone, ?_, w, here, count ▸ low, fun limit => ?_⟩
  · have quiet := deletionStep_quiet s i v x
    obtain ⟨more, placed, notices⟩ : Places (s.deletionStep i v x).2 _ _ :=
      Grows.places ((flushEvent_grows _).trans (evaluateRounds_grows s.cat.snaps.length i _))
    exact ⟨more, quiet.2 ▸ placed, notices⟩
  · have low : Volume.overLimit { v with retained := v.retained - freed } = false :=
      overLimit_within (.inr limit)
    have settled : freedVolume v freed = { v with
        retained := v.retained - freed, overReported := false, expiryWaiting := false } :=
      if_neg (by rw [low]; decide)
    have some : s.cat.snaps.length ≠ 0 := by
      have := expired_fewer found (expiring_found next)
      omega
    obtain ⟨fuel, fuels⟩ := Nat.exists_eq_succ_of_ne_zero some
    rw [settled] at stands
    rw [fuels, rounds_within stands low, vol_putVol_self] at here
    exact (Option.some.inj here).symm

/-! ### The waiting volumes in slot order (R83) -/

theorem places_then {r : Record} (h : Places s t r) (g : Grows t u) : Places s u r := by
  obtain ⟨more, placed, notices⟩ := h
  obtain ⟨-, -, -, later, grown, tail⟩ := g
  refine ⟨more ++ later, by rw [grown, placed, List.append_assoc, List.cons_append], ?_⟩
  exact fun x mem => (List.mem_append.mp mem).elim (notices x) (tail x)

theorem flagged_idle (idle : ∀ z, s.vol i = some z → z.expiryWaiting = false) :
    s.evaluateFlagged i = s := by
  unfold State.evaluateFlagged
  split
  · rfl
  · rename_i z here
    exact if_neg (by rw [idle z here]; decide)

theorem flagged_waiting (found : s.vol i = some v) (waits : v.expiryWaiting = true) :
    s.evaluateFlagged i = s.evaluate i := by
  unfold State.evaluateFlagged
  rw [found]
  exact if_pos waits

theorem foldl_flagged_idle (js : List (Fin 8))
    (idle : ∀ j ∈ js, ∀ z, s.vol j = some z → z.expiryWaiting = false) :
    js.foldl State.evaluateFlagged s = s := by
  induction js with
  | nil => rfl
  | cons j js ih =>
    obtain ⟨first, rest⟩ := List.forall_mem_cons.mp idle
    rw [List.foldl_cons, flagged_idle first, ih rest]

/-- The evaluation of other volumes leaves a volume, its snapshots and a raised RESERVE_OVER. -/
theorem foldl_flagged_others (js : List (Fin 8)) (others : i ∉ js) (s : State) :
    let t := js.foldl State.evaluateFlagged s
    t.vol i = s.vol i ∧ t.snapsOf i = s.snapsOf i ∧ Grows s t ∧
      (s.port.events[EventKind.index .reserveOver].flag = true →
        t.port.events[EventKind.index .reserveOver].flag = true) := by
  induction js generalizing s with
  | nil => exact ⟨rfl, rfl, .refl s, id⟩
  | cons j js ih =>
    obtain ⟨apart, others⟩ := not_or.mp (List.mem_cons.not.mp others)
    obtain ⟨vol, snaps⟩ := evaluateFlagged_others apart s
    obtain ⟨vol', snaps', grows, raised⟩ := ih others (s.evaluateFlagged j)
    exact ⟨vol'.trans vol, snaps'.trans snaps, (evaluateFlagged_grows s j).trans grows,
      fun flag => raised (evaluateFlagged_raised flag)⟩

/-- The turn of a slot: the state before it, and the slots behind it. -/
theorem slots8_turn (i : Fin 8) : ∃ before behind, slots8 = before ++ i :: behind ∧
    (∀ j ∈ before, j < i) ∧ ∀ j ∈ behind, i < j :=
  ⟨slots8.take i.val, slots8.drop (i.val + 1), by revert i; decide⟩

/-- The evaluation of the waiting volumes, seen from one of them. -/
theorem evaluateWaiting_turn (room : s.room = true) (i : Fin 8) :
    ∃ u, u.vol i = s.vol i ∧ u.snapsOf i = s.snapsOf i ∧
      ((∀ j, j < i → ∀ z, s.vol j = some z → z.expiryWaiting = false) → u = s) ∧
      let m := u.evaluateFlagged i
      let t := s.evaluateWaiting
      t.vol i = m.vol i ∧ t.snapsOf i = m.snapsOf i ∧ Grows m t ∧
      (m.port.events[EventKind.index .reserveOver].flag = true →
        t.port.events[EventKind.index .reserveOver].flag = true) ∧
      ((∀ j, j ≠ i → ∀ z, s.vol j = some z → z.expiryWaiting = false) → t = m) := by
  obtain ⟨before, behind, split, below, above⟩ := slots8_turn i
  let u := before.foldl State.evaluateFlagged s
  have run : s.evaluateWaiting = behind.foldl State.evaluateFlagged (u.evaluateFlagged i) := by
    refine (if_pos room).trans ?_
    rw [split, List.foldl_append, List.foldl_cons]
  obtain ⟨vol, snaps, -, -⟩ := foldl_flagged_others before (fun mem => (below i mem).ne rfl) s
  have first : (∀ j, j < i → ∀ z, s.vol j = some z → z.expiryWaiting = false) → u = s :=
    fun idle => foldl_flagged_idle before fun j mem => idle j (below j mem)
  obtain ⟨vol', snaps', grows, raised⟩ := foldl_flagged_others behind
    (fun mem => (above i mem).ne rfl) (u.evaluateFlagged i)
  refine ⟨u, vol, snaps, first, ?_⟩
  dsimp only
  rw [run]
  refine ⟨vol', snaps', grows, raised, fun idle => foldl_flagged_idle behind fun j mem z here => ?_⟩
  have apart : j ≠ i := (above j mem).ne'
  rw [first fun j less => idle j less.ne, (evaluateFlagged_others apart s).1] at here
  exact idle j apart z here

theorem keptBuckets_eq (s : State) (i : Fin 8) (x : Snapshot) :
    keptBuckets s i x = x.buckets.filter fun b => (s.nextOlder i x.epoch).any fun p => b.birth ≤ p :=
  movedBuckets_eq ..

/-- Settles O18: the deletion by request, then the evaluation volume by volume. -/
theorem deletionByRequestAndByExpiry : Obligations.DeletionByRequestAndByExpiry := by
  constructor
  · intro s r q i v x takes parsed volume found snap
    refine ⟨fun marked => refused_taken rfl takes parsed (deleteRequest_held (s := s.dropHead)
      volume found snap ?_), fun hold pin refs => ?_⟩
    · rw [← Bool.not_eq_true, deletable_iff]
      rintro ⟨hold, pin, refs⟩
      rcases marked with h | h | h
      · exact Bool.false_ne_true (hold.symm.trans h)
      · exact Bool.false_ne_true (pin.symm.trans h)
      · exact h refs
    · have leaves := deleteRequest_leaves takes parsed volume found snap
        (deletable_iff.mpr ⟨hold, pin, refs⟩)
      unfold freedBlocks at leaves
      rw [keptBuckets_eq] at leaves
      exact leaves
  · intro s released
    have run := exec_released (c := .expiryWaitingEvaluation) (f := State.evaluateWaiting) rfl released
    refine ⟨fun full => ?_, fun room => ⟨s.evaluateWaiting, run, evaluateWaiting_changes s,
      fun i v found => ?_⟩⟩
    · rw [run]
      exact congrArg _ (if_neg (by rw [full]; decide))
    obtain ⟨u, vol, snaps, first, vol', snaps', grows, raised, alone⟩ := evaluateWaiting_turn room i
    have stands : u.vol i = some v := vol.trans found
    refine ⟨fun idle => ?_, fun waits => ?_⟩
    · have same : u.evaluateFlagged i = u := flagged_idle fun z here => by
        cases stands.symm.trans here
        exact idle
      rw [same] at vol' snaps'
      exact ⟨vol'.trans stands, snaps'.trans snaps⟩
    have turn : u.evaluateFlagged i = u.evaluate i := flagged_waiting stands waits
    rw [turn] at vol' snaps' grows raised alone
    refine ⟨fun within => ?_, fun above stuck => ?_, ?_, fun idle e x above auto candidate snap => ?_⟩
    · rw [vol', evaluate_within stands within, vol_putVol_self]
    · rw [← candidate_of_snapsOf snaps] at stuck
      obtain ⟨left, flag, -⟩ := evaluate_stuck stands above stuck
      refine ⟨vol'.trans left, fun fresh => raised (flag fresh), fun idle => ?_⟩
      obtain rfl := first fun j less => idle j less.ne
      rw [alone idle]
      exact (evaluate_stuck stands above stuck).2.2
    · exact (rounds_settled (Nat.lt_succ_self _) stands).kept vol' snaps' grows
    · obtain rfl := first idle
      obtain ⟨-, -, rfl⟩ := findSnap_some snap
      have next : expiring u i v = some x := by
        unfold expiring
        rw [auto, if_pos rfl, candidate]
        exact snap
      obtain ⟨gone, placed, w, here, low, within⟩ :=
        evaluate_expires_leaves stands above room next
      unfold freedBlocks at placed low within
      rw [keptBuckets_eq] at placed low within
      exact ⟨(findSnap_of_snapsOf snaps' _).trans gone, places_then placed grows, w, vol'.trans here, low,
        within⟩

end Sys2Proof.Proofs

/-! PROOFS. What an issue pass, the test and the end step of a volume, and the close of the window
leave (R143, R149, R153). -/

namespace Sys2Proof.Proofs

open Sys2Proof.Machine Sys2Proof.Safety

variable {s t u : State} {i j : Fin 8} {v w : Volume} {k : EventKind}

/-! ### Issue passes (R149) -/

/-- What the head and the figures of a volume's tickets read. -/
def SameNight (s t : State) : Prop :=
  t.cat = s.cat ∧ t.dup = s.dup ∧ t.poolFree = s.poolFree ∧ t.image = s.image

theorem SameNight.head (h : SameNight s t) : t.head = s.head := by
  obtain ⟨cat, dup, pool, image⟩ := h
  cases s
  cases t
  dsimp only at cat dup pool image
  subst cat dup pool image
  rfl

theorem SameNight.endReached (h : SameNight s t) (i : Fin 8) (v : Volume) :
    t.endReached i v = s.endReached i v := by
  obtain ⟨-, dup, -, -⟩ := h
  cases s
  cases t
  dsimp only at dup
  subst dup
  rfl

theorem SameNight.backlogOf (h : SameNight s t) (i : Fin 8) (v : Volume) :
    t.backlogOf i v = s.backlogOf i v := by
  obtain ⟨-, dup, -, image⟩ := h
  cases s
  cases t
  dsimp only at dup image
  subst dup image
  rfl

theorem SameNight.ticketsOut (h : SameNight s t) : t.ticketsOut = s.ticketsOut := by
  obtain ⟨-, dup, -, -⟩ := h
  unfold State.ticketsOut State.ticket
  rw [dup]

theorem SameNight.vol (h : SameNight s t) (i : Fin 8) : t.vol i = s.vol i := by
  obtain ⟨cat, -, -, -⟩ := h
  unfold State.vol
  rw [cat]

theorem SameNight.trans (h : SameNight s t) (g : SameNight t u) : SameNight s u := by
  obtain ⟨cat, dup, pool, image⟩ := h
  obtain ⟨cat', dup', pool', image'⟩ := g
  exact ⟨cat'.trans cat, dup'.trans dup, pool'.trans pool, image'.trans image⟩

theorem SameNight.of_port (h : ChangesOnly [.port] s t) : SameNight s t := by
  have board := h.1
  obtain ⟨-, -, -, -, image, -⟩ := board
  exact ⟨h.2 .cat (by decide), h.2 .dup (by decide), h.2 .pool (by decide), image⟩

/-- Without a head nothing is issued. -/
theorem issuePass_idle (idle : s.head = none) : s.issuePass = s := by
  unfold State.issuePass issueRounds
  rw [idle]

/-- An issue pass leaves the snapshots, the window and what no ticket writes of the volumes. -/
theorem issuePass_leaves (s : State) : s.issuePass.cat.snaps = s.cat.snaps ∧
    s.issuePass.dup.window = s.dup.window ∧
    ∀ j, (s.issuePass.vol j).map unsent = (s.vol j).map unsent := by
  refine issuePass_invariant (P := fun u => u.cat.snaps = s.cat.snaps ∧
    u.dup.window = s.dup.window ∧ ∀ j, (u.vol j).map unsent = (s.vol j).map unsent)
    (fun u i v found h => ?_) ⟨rfl, rfl, fun _ => rfl⟩
  obtain ⟨snaps, window, vols⟩ := h
  obtain ⟨snaps', vols'⟩ := issueTicket_unsent found
  refine ⟨snaps'.trans snaps, Eq.trans ?_ window, fun j => (vols' j).trans (vols j)⟩
  unfold State.issueTicket
  split <;> rfl

theorem issuePass_vol (found : s.vol i = some v) :
    ∃ w, s.issuePass.vol i = some w ∧ unsent w = unsent v := by
  have kept := (issuePass_leaves s).2.2 i
  rw [found] at kept
  exact Option.map_eq_some_iff.mp kept

/-! ### The duplication fields of a volume record -/

/-- What the cut and the end of a volume write, and neither a ticket nor the evaluation does. -/
structure Stage where
  dup : DupState
  endDue : Bool
  sendEpoch : Option Nat
  base : Option Nat
  openEpoch : Nat
  current : List Extent
  fullScan : Bool
  cutDeadline : Option Nat
  cutDue : Bool

def stageOf (v : Volume) : Stage :=
  { dup := v.dup, endDue := v.endDue, sendEpoch := v.sendEpoch, base := v.base,
    openEpoch := v.openEpoch, current := v.current, fullScan := v.fullScan,
    cutDeadline := v.cutDeadline, cutDue := v.cutDue }

theorem stageOf_unsent (h : unsent w = unsent v) : stageOf w = stageOf v :=
  have same (v : Volume) : stageOf (unsent v) = stageOf v := rfl
  (same w).symm.trans ((congrArg stageOf h).trans (same v))

theorem stageOf_lasting (h : lasting w = lasting v) : stageOf w = stageOf v :=
  have same (v : Volume) : stageOf (lasting v) = stageOf v := rfl
  (same w).symm.trans ((congrArg stageOf h).trans (same v))

theorem issuePass_stage (found : s.vol i = some v) :
    ∃ w, s.issuePass.vol i = some w ∧ stageOf w = stageOf v := by
  obtain ⟨w, here, same⟩ := issuePass_vol found
  exact ⟨w, here, stageOf_unsent same⟩

theorem evaluateIfOver_stage (found : s.vol i = some v) :
    ∃ w, (s.evaluateIfOver i).vol i = some w ∧ stageOf w = stageOf v := by
  unfold State.evaluateIfOver
  rw [found]
  dsimp only
  split
  · obtain ⟨w, here, same⟩ := evaluate_vol found i
    exact ⟨w, here, stageOf_lasting same⟩
  · exact ⟨v, found, rfl⟩

theorem evaluateIfOver_within (found : s.vol i = some v) (within : v.overLimit = false) :
    s.evaluateIfOver i = s := by
  unfold State.evaluateIfOver
  rw [found]
  exact if_neg (by rw [within]; decide)

/-! ### The close of the window (R143) -/

/-- What the close does to one volume. -/
def closeVolume (s : State) (i : Fin 8) : State :=
  match s.vol i with
  | none => s
  | some v =>
    if v.dup = .sending ∨ v.dup = .stalled then
      (s.putVol i (some { v with dup := .carried })).raise .windowCarried v.id
    else if v.dup = .cutPending then
      (s.putVol i (some { v with dup := .missed, cutDeadline := none, cutDue := false })).raise
        .cutMissed v.id
    else s

theorem closeIfDone_eq (s : State) : s.closeIfDone =
    if s.dup.window = .closing ∧ s.ticketsOut.isEmpty ∧
        slots8.all (fun i => match s.vol i with | some v => !v.endDue | none => true) then
      slots8.foldl closeVolume (s.setDup { s.dup with window := .closed })
    else s := rfl

/-- What the close of each volume keeps, the close of the window keeps. -/
theorem closeIfDone_keeps {P : State → Prop} (one : ∀ u j, P u → P (closeVolume u j))
    (window : P (s.setDup { s.dup with window := .closed })) (h : P s) : P s.closeIfDone :=
  ite_keeps (fun _ => foldl_keeps one _ _ window) fun _ => h

/-- A volume that is neither sending nor owes a cut stands. -/
theorem closeIfDone_vol (found : s.vol i = some v) (quiet : v.dup ≠ .sending ∧ v.dup ≠ .stalled ∧
    v.dup ≠ .cutPending) : s.closeIfDone.vol i = some v := by
  refine closeIfDone_keeps (P := fun u => u.vol i = some v) (fun u j here => ?_) found found
  unfold closeVolume
  split
  · exact here
  rename_i z stands
  by_cases same : j = i
  · subst same
    cases here.symm.trans stands
    obtain ⟨sending, stalled, owed⟩ := quiet
    rw [if_neg (not_or.mpr ⟨sending, stalled⟩), if_neg owed]
    exact here
  · have other : ∀ z, (u.putVol j z).vol i = some v := fun z =>
      (vol_putVol_other u (Ne.symm same) z).trans here
    exact ite_keeps (P := fun u => u.vol i = some v) (fun _ => other _) fun _ =>
      ite_keeps (P := fun u => u.vol i = some v) (fun _ => other _) fun _ => here

theorem closeIfDone_waits (waits : s.dup.window ≠ .closing ∨ s.ticketsOut ≠ []) :
    s.closeIfDone = s := by
  rw [closeIfDone_eq]
  refine if_neg ?_
  rintro ⟨closing, empty, -⟩
  exact waits.elim (· closing) (· (List.isEmpty_iff.mp empty))

/-- An end that is due holds the window back. -/
theorem closeIfDone_due (found : s.vol i = some v) (due : v.endDue = true) : s.closeIfDone = s := by
  have every : ∀ i : Fin 8, i ∈ slots8 := by decide
  rw [closeIfDone_eq]
  refine if_neg ?_
  rintro ⟨-, -, all⟩
  have := List.all_eq_true.mp all i (every i)
  rw [found] at this
  simp [due] at this

theorem closeVolume_dup (s : State) (i : Fin 8) : (closeVolume s i).dup = s.dup := by
  unfold closeVolume
  split
  · rfl
  · exact ite_keeps (P := fun u => u.dup = s.dup) (fun _ => rfl) fun _ =>
      ite_keeps (P := fun u => u.dup = s.dup) (fun _ => rfl) fun _ => rfl

theorem closeIfDone_closes (closing : s.dup.window = .closing) (empty : s.ticketsOut = [])
    (settled : ∀ j z, s.vol j = some z → z.endDue = false) : s.closeIfDone.dup.window = .closed := by
  have ends : slots8.all (fun i => match s.vol i with | some v => !v.endDue | none => true) := by
    refine List.all_eq_true.mpr fun j _ => ?_
    split
    · rename_i z here
      rw [settled j z here, Bool.not_false]
    · rfl
  rw [closeIfDone_eq, if_pos ⟨closing, List.isEmpty_iff.mpr empty, ends⟩]
  exact foldl_keeps (P := fun u => u.dup.window = .closed)
    (fun u j h => (congrArg Duplication.window (closeVolume_dup u j)).trans h) _ _ rfl

/-! ### The test for an end and the end step (R153) -/

theorem testEnd_open (found : s.vol i = some v) (going : s.endReached i v = false) :
    s.testEnd i = s := by
  unfold State.testEnd
  rw [found]
  exact if_neg (by rw [going]; decide)

theorem testEnd_reached (found : s.vol i = some v) (reached : s.endReached i v = true) :
    s.testEnd i = s.putVol i (some { v with endDue := true }) := by
  unfold State.testEnd
  rw [found]
  exact if_pos reached

theorem endReached_sending (reached : s.endReached i v = true) : v.dup = .sending := by
  simp only [State.endReached, Bool.and_eq_true, beq_iff_eq] at reached
  exact reached.1.1

theorem dupEndStep_waits (found : s.vol i = some v) (waits : v.endDue = false ∨ s.room = false) :
    s.dupEndStep i = s := by
  unfold State.dupEndStep
  rw [found]
  refine if_neg ?_
  rintro ⟨due, room⟩
  rcases waits with h | h
  · exact Bool.false_ne_true (h.symm.trans due)
  · exact Bool.false_ne_true (h.symm.trans room)

/-- The duplication fields that an end leaves. -/
def Stage.ended (x : Stage) : Stage :=
  { x with dup := .done, endDue := false, sendEpoch := none, base := x.sendEpoch }

theorem dupEndStep_ends (found : s.vol i = some v) (due : v.endDue = true) (room : s.room = true) :
    ∃ w, (s.dupEndStep i).vol i = some w ∧ stageOf w = (stageOf v).ended := by
  have ends : ∀ {a z n b}, stageOf z = (stageOf v).ended → ∃ w,
      ((((a : State).putVol i (some z)).notice n b).evaluateIfOver i).closeIfDone.flushEvent.vol i =
        some w ∧ stageOf w = (stageOf v).ended := by
    intro a z n b stage
    have put : ((a.putVol i (some z)).notice n b).vol i = some z := vol_putVol_self ..
    obtain ⟨w, here, same⟩ := evaluateIfOver_stage put
    have dup : w.dup = .done := congrArg Stage.dup (same.trans stage)
    refine ⟨w, ?_, same.trans stage⟩
    rw [vol_of_changes (by decide) (flushEvent_changes _)]
    exact closeIfDone_vol here (by rw [dup]; decide)
  unfold State.dupEndStep
  rw [found]
  dsimp only
  rw [if_pos ⟨due, room⟩]
  exact ends rfl

/-! ### Events -/

theorem sameEvent_closeIfDone (carried : k.index ≠ EventKind.index .windowCarried)
    (missed : k.index ≠ EventKind.index .cutMissed) (s : State) : SameEvent k s s.closeIfDone := by
  refine closeIfDone_keeps (P := SameEvent k s) (fun u j h => h.trans ?_) rfl rfl
  unfold closeVolume
  split
  · exact .refl u
  · exact .ite (fun _ => sameEvent_raise (s := u.putVol j _) carried _) fun _ =>
      .ite (fun _ => sameEvent_raise (s := u.putVol j _) missed _) fun _ => .refl u

theorem sameEvent_evaluateIfOver (merge : k.index ≠ EventKind.index .bucketMerge)
    (reserve : k.index ≠ EventKind.index .reserveOver) (s : State) (i : Fin 8) :
    SameEvent k s (s.evaluateIfOver i) := by
  unfold State.evaluateIfOver
  split
  · exact .refl s
  · exact .ite (fun _ => sameEvent_evaluate merge reserve s i) fun _ => .refl s

end Sys2Proof.Proofs

/-! PROOFS. The cut that SNAPSHOT of kind DUPLICATION makes (R131, R132, R146): one half of O31. -/

namespace Sys2Proof.Proofs

open Sys2Proof.Machine Sys2Proof.Safety

section Cut

variable {s b : State} {i : Fin 8} {v w z : Volume} {q : SnapshotReq} {tag e : Nat}

/-! ### The cut up to its test for an end -/

/-- The reference of the send role moved from its old snapshot to the new one (R146). -/
def sendMoved (s : State) (i : Fin 8) (v : Volume) (e : Nat) : State :=
  match v.sendEpoch with
  | some old => (s.takeRef i e).giveRef i old
  | none => s.takeRef i e

/-- The cut before its test for an end. -/
def cutUntested (s : State) (i : Fin 8) (v : Volume) (e : Nat) : State :=
  ((sendMoved s i v e).putVol i (some (cutRecord v e))).setPool (s.poolFree + v.cutLists.2)

theorem sendMoved_eq (s : State) (i : Fin 8) (v : Volume) (e : Nat) : sendMoved s i v e =
    s.setCat { s.cat with snaps := (sendMoved s i v e).cat.snaps } := by
  unfold sendMoved
  split <;> rfl

theorem cutVolume_eq (s : State) (i : Fin 8) (v : Volume) (e : Nat) :
    s.cutVolume i v e = (cutUntested s i v e).testEnd i := by
  unfold cutUntested
  have pool : (sendMoved s i v e).poolFree = s.poolFree := by
    rw [sendMoved_eq]
    rfl
  rw [← pool]
  rfl

theorem cutUntested_vol (s : State) (i : Fin 8) (v : Volume) (e : Nat) :
    (cutUntested s i v e).vol i = some (cutRecord v e) :=
  vol_putVol_self ..

theorem cutUntested_changes (s : State) (i : Fin 8) (v : Volume) (kind : SnapKind) (label e : Nat) :
    ChangesOnly [.cat, .pool] s (cutUntested (s.makeSnapshot i v kind label) i v e) := by
  have moved : ChangesOnly [.cat] (s.makeSnapshot i v kind label)
      (sendMoved (s.makeSnapshot i v kind label) i v e) := by
    rw [sendMoved_eq]
    exact setCat_changes ..
  exact andThen (by decide) (within (by decide) ((makeSnapshot_changes ..).trans
    (moved.trans (putVol_changes ..)))) (setPool_changes ..)

/-- The record that the cut leaves, its lists written out (R131, R132, R146). -/
theorem cutRecord_eq (v : Volume) (e : Nat) : cutRecord v e =
    { v with
      openEpoch := e + 1, cutDeadline := none, cutDue := false, dup := .sending
      sendEpoch := some e, current := [], fullScan := false
      send := if startsScan v then .scan 0
        else .extents (appendAllOwned v.send.entries v.current).1 } := by
  have scans : v.cutScans = startsScan v := rfl
  unfold cutRecord Volume.cutLists
  rw [scans]
  by_cases scan : startsScan v = true
  · rw [if_pos scan, if_pos scan]
  · have full : v.fullScan = false := by
      unfold startsScan at scan
      simp only [Bool.or_eq_true, not_or, Bool.not_eq_true] at scan
      exact scan.1.1
    rw [if_neg scan, if_neg scan, ← full]

/-- The entries that the cut returns to the pool (R131, R132). -/
theorem cutLists_freed (v : Volume) : v.cutLists.2 =
    if startsScan v then v.send.entries.length + v.current.length
    else (appendAllOwned v.send.entries v.current).2 :=
  apply_ite Prod.snd (startsScan v = true) _ _

/-- The snapshots when the send role has moved to a new one: the new record stands behind those that
stood, referenced once, and the old send snapshot has one reference less. -/
theorem sendMoved_snaps (kind : SnapKind) (label : Nat)
    (below : ∀ y ∈ s.cat.snaps, y.slot = i → y.epoch < v.openEpoch)
    (send : ∀ e ∈ v.sendEpoch, e < v.openEpoch) :
    (sendMoved (s.makeSnapshot i v kind label) i v v.openEpoch).cat.snaps =
      (s.cat.snaps.map fun y =>
        if y.slot = i ∧ v.sendEpoch = some y.epoch then { y with refs := y.refs - 1 } else y) ++
      [{ s.newSnapshot i v kind label with refs := 1 }] := by
  have taken : ((s.makeSnapshot i v kind label).takeRef i v.openEpoch).cat.snaps =
      s.cat.snaps ++ [{ s.newSnapshot i v kind label with refs := 1 }] := by
    have fresh : ∀ y ∈ s.cat.snaps, ¬ (y.slot = i ∧ y.epoch = v.openEpoch) :=
      fun y member same => Nat.ne_of_lt (below y member same.1) same.2
    refine List.map_append.trans (congrArg₂ _ ?_ ?_)
    · exact (List.map_congr_left fun y member => if_neg (fresh y member)).trans (List.map_id' _)
    · exact congrArg (fun y => [y]) (if_pos ⟨rfl, rfl⟩)
  unfold sendMoved
  split
  · rename_i old sent
    have apart : ¬ (i = i ∧ v.openEpoch = old) := fun same => Nat.ne_of_gt (send old sent) same.2
    refine (congrArg (List.map _) taken).trans (List.map_append.trans (congrArg₂ _ ?_ ?_))
    · refine List.map_congr_left fun y _ => ?_
      refine if_congr (and_congr_right' ?_) rfl rfl
      rw [sent, Option.some_inj, eq_comm]
    · exact congrArg (fun y => [y]) (if_neg apart)
  · rename_i unsent
    rw [taken, unsent]
    refine congrArg (· ++ _) (Eq.symm ?_)
    exact (List.map_congr_left fun y _ => if_neg fun h => nomatch h.2).trans (List.map_id' _)

/-! ### What follows the answer of a cut -/

/-- The end step, the evaluation and the issue pass behind the answer of a cut (R146, R153). -/
def cutFollowed (b : State) (i : Fin 8) (moved : Bool) : State :=
  (if moved then (b.dupEndStep i).evaluateIfOver i else b.dupEndStep i).issuePass

theorem cutFollowed_grows (b : State) (i : Fin 8) (moved : Bool) :
    Grows b (cutFollowed b i moved) := by
  unfold cutFollowed
  refine Grows.trans ?_ (issuePass_grows _)
  split
  · exact (dupEndStep_grows ..).trans (evaluateIfOver_grows ..)
  · exact dupEndStep_grows ..

/-- With no end taken only the issue pass follows. -/
theorem cutFollowed_waits (moved : Bool) (found : b.vol i = some z)
    (waits : z.endDue = false ∨ b.room = false) (within : z.overLimit = false) :
    cutFollowed b i moved = b.issuePass := by
  unfold cutFollowed
  rw [dupEndStep_waits found waits, evaluateIfOver_within found within, ite_self]

theorem cutFollowed_ends (moved : Bool) (found : b.vol i = some z) (due : z.endDue = true)
    (room : b.room = true) :
    ∃ w, (cutFollowed b i moved).vol i = some w ∧ stageOf w = (stageOf z).ended := by
  obtain ⟨y, ended, stage⟩ := dupEndStep_ends found due room
  have evaluated : ∃ x, (if moved then (b.dupEndStep i).evaluateIfOver i
      else b.dupEndStep i).vol i = some x ∧ stageOf x = stageOf y := by
    split
    · exact evaluateIfOver_stage ended
    · exact ⟨y, ended, rfl⟩
  obtain ⟨x, stands, same⟩ := evaluated
  obtain ⟨w, here, still⟩ := issuePass_stage stands
  exact ⟨w, here, still.trans (same.trans stage)⟩

/-- An answer leaves notice room where the completion queue has ten free slots and no EVENT_PENDING is
due. -/
theorem room_answer (kind tag : Nat) (st : Status) (body : Body) (calm : s.port.eventDue = false)
    (free : s.port.completions.length ≤ 54) : (s.answer kind tag st body).room = true := by
  have quiet : ∀ p : State, p.port.eventDue = false → p.flushEvent = p := by
    intro p still
    unfold State.flushEvent
    exact if_neg fun h => Bool.false_ne_true (still.symm.trans h.1)
  unfold State.answer State.answerPart
  rw [quiet _ (show (s.place _).port.eventDue = false from calm), room_iff]
  rw [show (s.place _).port.completions = s.port.completions ++ [_] from rfl, List.length_append]
  exact Nat.succ_le_succ free

/-- The fields of a volume that has just been cut (R146). -/
theorem cutRecord_stage (v : Volume) (e : Nat) : stageOf (cutRecord v e) =
    { dup := .sending, endDue := v.endDue, sendEpoch := some e, base := v.base, openEpoch := e + 1,
      current := [], fullScan := false, cutDeadline := none, cutDue := false } := by
  rw [cutRecord_eq]
  rfl

/-- The cut up to its test for an end, as the state that the statement of O31 names. -/
theorem cutUntested_night (label : Nat)
    (below : ∀ y ∈ s.cat.snaps, y.slot = i → y.epoch < v.openEpoch)
    (send : ∀ e ∈ v.sendEpoch, e < v.openEpoch) {snaps : List Snapshot} {freed : Nat}
    (rolled : snaps = (s.cat.snaps.map fun y =>
        if y.slot = i ∧ v.sendEpoch = some y.epoch then { y with refs := y.refs - 1 } else y) ++
      [{ s.newSnapshot i v .duplication label with refs := 1 }])
    (entries : v.cutLists.2 = freed) :
    SameNight
      { s with
        cat := { s.cat with
          vols := s.cat.vols.set i (some (cutRecord v v.openEpoch)), snaps := snaps }
        poolFree := s.poolFree + freed }
      (cutUntested (s.makeSnapshot i v .duplication label) i v v.openEpoch) := by
  subst rolled entries
  have moved := sendMoved_snaps .duplication label below send
  have vols : (s.cat.vols.set i (some { v with openEpoch := v.openEpoch + 1 })).set i
      (some (cutRecord v v.openEpoch)) = s.cat.vols.set i (some (cutRecord v v.openEpoch)) :=
    Vector.set_set ..
  unfold cutUntested
  rw [sendMoved_eq, moved]
  exact ⟨congrArg (fun vols => Catalogue.mk vols _ _ _ _) vols, rfl, rfl, rfl⟩

/-! ### A cut answered -/

/-- A cut from its test for an end on (R146, R153). -/
def cutRun (made : State) (i : Fin 8) (tag e : Nat) (moved : Bool) : State :=
  cutFollowed ((made.testEnd i).answer 6 tag .ok (.snapshot e)) i moved

theorem snapshotRequest_cuts (named : SnapKind.ofCode q.kind = some .duplication)
    (volume : q.volume ≠ 0) (found : s.findVol q.volume = some (i, v))
    (passes : s.snapshotCheck v .duplication = none) :
    snapshotRequest tag q s =
      cutRun (cutUntested (s.makeSnapshot i v .duplication q.label) i v v.openEpoch) i tag
        v.openEpoch v.sendEpoch.isSome := by
  unfold snapshotRequest
  rw [named]
  dsimp only
  rw [if_neg volume, found]
  dsimp only
  rw [passes]
  unfold cutRun
  rw [← cutVolume_eq]
  exact if_pos rfl

section Run

variable {made : State}

theorem cutRun_answered {moved : Bool} (quiet : Quiet s.dropHead made) :
    Answered s (cutRun made i tag e moved) (reply 6 tag .ok (.snapshot e)) :=
  answered_of_quiet (quiet.trans (.of_changes (testEnd_changes ..) (by decide)))
    (cutFollowed_grows ..)

/-- A cut with something to send: the issue pass alone follows. -/
theorem cutRun_going {moved : Bool} (found : made.vol i = some z) (calm : z.endDue = false)
    (within : z.overLimit = false) (going : made.endReached i z = false) :
    (cutRun made i tag e moved).cat.snaps = made.cat.snaps ∧
      (∃ y, (cutRun made i tag e moved).vol i = some y ∧ stageOf y = stageOf z) ∧
      (made.head = none → (cutRun made i tag e moved).cat = made.cat ∧
        (cutRun made i tag e moved).dup = made.dup ∧
        (cutRun made i tag e moved).poolFree = made.poolFree) := by
  let b := made.answer 6 tag .ok (.snapshot e)
  have answering : ChangesOnly [.port] made b := answer_changes ..
  have same : SameNight made b := .of_port answering
  have stands : b.vol i = some z := (vol_of_changes (by decide) answering i).trans found
  have run : cutRun made i tag e moved = b.issuePass := by
    unfold cutRun
    rw [testEnd_open found going]
    exact cutFollowed_waits moved stands (.inl calm) within
  rw [run]
  have head := same.head
  obtain ⟨cat, dup, pool, -⟩ := same
  refine ⟨(issuePass_leaves b).1.trans (congrArg _ cat), issuePass_stage stands, fun idle => ?_⟩
  rw [issuePass_idle (head.trans idle)]
  exact ⟨cat, dup, pool⟩

/-- A cut with nothing to send: its end is due, and taken with notice room. -/
theorem cutRun_ending {moved : Bool} (found : made.vol i = some z) (within : z.overLimit = false)
    (reached : made.endReached i z = true) :
    ∃ y, (cutRun made i tag e moved).vol i = some y ∧
      (stageOf y = { stageOf z with endDue := true } ∧
          (cutRun made i tag e moved).cat.snaps = made.cat.snaps ∨
        stageOf y = (stageOf z).ended) ∧
      (made.port.eventDue = false → made.port.completions.length ≤ 54 →
        stageOf y = (stageOf z).ended) := by
  let due : Volume := { z with endDue := true }
  let b := (made.putVol i (some due)).answer 6 tag .ok (.snapshot e)
  have answering : ChangesOnly [.port] (made.putVol i (some due)) b := answer_changes ..
  have stands : b.vol i = some due :=
    (vol_of_changes (by decide) answering i).trans (vol_putVol_self ..)
  have run : cutRun made i tag e moved = cutFollowed b i moved := by
    unfold cutRun
    rw [testEnd_reached found reached]
  rw [run]
  by_cases room : b.room = true
  · obtain ⟨y, here, ended⟩ := cutFollowed_ends moved stands rfl room
    exact ⟨y, here, .inr ended, fun _ _ => ended⟩
  · rw [cutFollowed_waits moved stands (.inr (Bool.eq_false_iff.mpr room)) within]
    obtain ⟨y, here, same⟩ := issuePass_stage stands
    have cat : b.cat = (made.putVol i (some due)).cat := answering.2 .cat (by decide)
    refine ⟨y, here, .inl ⟨same, ?_⟩, fun calm free => ?_⟩
    · rw [(issuePass_leaves b).1, cat]
      rfl
    · exact absurd (room_answer (s := made.putVol i (some due)) 6 tag .ok _ calm free) room

end Run

/-! ### The request taken from the queue -/

/-- The cut of the request at the head of the queue, up to its test for an end. -/
def cutMade (s : State) (i : Fin 8) (v : Volume) (label : Nat) : State :=
  cutUntested (s.dropHead.makeSnapshot i v .duplication label) i v v.openEpoch

theorem cutMade_changes (s : State) (i : Fin 8) (v : Volume) (label : Nat) :
    ChangesOnly [.cat, .pool] s.dropHead (cutMade s i v label) := cutUntested_changes ..

/-- The SNAPSHOT of a volume that owes its cut, and that passes the other checks of R73, runs the cut. -/
theorem snapshot_runs_cut {r : Bytes} (takes : Takes s 6 r) (parsed : parseSnapshot r = some q)
    (named : SnapKind.ofCode q.kind = some .duplication) (volume : q.volume ≠ 0)
    (found : s.findVol q.volume = some (i, v)) (passes : s.snapshotCheck v .duplication = none) :
    let t := cutRun (cutMade s i v q.label) i (recordTag r) v.openEpoch v.sendEpoch.isSome
    exec .snapshot s = .next t ∧
      Answered s t (reply 6 (recordTag r) .ok (.snapshot v.openEpoch)) ∧
      ChangesOnly [.cat, .pool, .dup, .port] s t := by
  intro t
  have runs : snapshotRequest (recordTag r) q s.dropHead = t :=
    snapshotRequest_cuts (s := s.dropHead) named volume found passes
  refine ⟨(whenReleased_taken takes parsed).trans (congrArg _ runs),
    cutRun_answered (.of_changes (cutMade_changes ..) (by decide)), ?_⟩
  rw [← runs]
  exact andThen (by decide) (within (by decide) (dropHead_changes s)) (snapshotRequest_changes ..)

end Cut

end Sys2Proof.Proofs

/-! PROOFS. SENT: the answered ticket and what follows its completion (R134, R135, R151, R152): the
other half of O31. -/

namespace Sys2Proof.Proofs

open Sys2Proof.Machine Sys2Proof.Safety

section Sent

variable {s b : State} {i : Fin 8} {k : Fin 16} {v w z : Volume} {x : Ticket} {q : SentReq}
  {tag : Nat}

/-! ### The ticket that a request names -/

/-- The test of SENT for the ticket of its number. -/
def ticketMatch (s : State) (number : Nat) (k : Fin 16) : Option (Fin 16 × Ticket) :=
  (s.ticket k).bind fun x => if x.number = number then some (k, x) else none

theorem ticketMatch_none {number : Nat} (other : ∀ x, s.ticket k = some x → x.number ≠ number) :
    ticketMatch s number k = none := by
  unfold ticketMatch
  cases here : s.ticket k with
  | none => rfl
  | some x => exact if_neg (other x here)

theorem ticketMatch_some (here : s.ticket k = some x) :
    ticketMatch s x.number k = some (k, x) := by
  unfold ticketMatch
  rw [here]
  exact if_pos rfl

/-- The first ticket record of a number is the one that is answered. -/
theorem ticketMatch_first {number : Nat} (here : s.ticket k = some x) (named : x.number = number)
    (first : ∀ j, j < k → ∀ y, s.ticket j = some y → y.number ≠ number) :
    slots16.findSome? (ticketMatch s number) = some (k, x) := by
  have split : ∀ k : Fin 16, slots16 = slots16.take k ++ k :: slots16.drop (k + 1) := by decide
  have before : ∀ k : Fin 16, ∀ j ∈ slots16.take k, j < k := by decide
  subst named
  exact List.findSome?_eq_some_iff.mpr ⟨_, k, _, split k, ticketMatch_some here,
    fun j member => ticketMatch_none (first j (before k j member))⟩

/-! ### The ticket answered -/

/-- The record of a volume whose ticket failed or not, the stall decided (R151, R152). -/
theorem answered_eq (v : Volume) (work : Work) (fail : Bool) (retryLimit : Nat) :
    v.answered work (!fail) retryLimit =
      if fail then { v with
        outstanding := v.outstanding - 1
        send := (giveBack work v.send).1
        failures := min (v.failures + 1) 255
        dup := if (fail && v.dup == .sending && !v.endDue &&
          decide (retryLimit < min (v.failures + 1) 255)) then .stalled else v.dup }
      else { v with outstanding := v.outstanding - 1 } := by
  cases fail with
  | false => rfl
  | true =>
    unfold Volume.answered
    simp [and_assoc]

theorem answered_stalls {fail : Bool} {retryLimit : Nat} (work : Work)
    (stalls : (fail && v.dup == .sending && !v.endDue &&
      decide (retryLimit < min (v.failures + 1) 255)) = true) :
    v.dup = .sending ∧ (v.answered work (!fail) retryLimit).dup = .stalled := by
  have parts := stalls
  simp only [Bool.and_eq_true, beq_iff_eq] at parts
  obtain ⟨⟨⟨failed, sending⟩, -⟩, -⟩ := parts
  refine ⟨sending, ?_⟩
  rw [answered_eq, if_pos failed]
  exact if_pos stalls

theorem answered_keeps (v : Volume) (work : Work) (ok : Bool) (retryLimit : Nat) :
    (v.answered work ok retryLimit).id = v.id ∧
      (v.answered work ok retryLimit).sendEpoch = v.sendEpoch ∧
      (v.answered work ok retryLimit).endDue = v.endDue := by
  unfold Volume.answered
  dsimp only
  split <;> exact ⟨rfl, rfl, rfl⟩

/-- A ticket record freed, its volume's record written, its entries in the pool (R151, R152). -/
def ticketTaken (s : State) (k : Fin 16) (x : Ticket) (w : Volume) (freed : Nat) : State :=
  ((s.putTicket k none).putVol x.slot (some w)).setPool (s.poolFree + freed)

theorem answerTicket_eq (fail : Bool) (found : s.vol x.slot = some v)
    (record : v.answered x.work (!fail) (s.profileOf v).retryLimit = w) :
    s.answerTicket k x (!fail) =
      let taken := ticketTaken s k x w (if fail then (giveBack x.work v.send).2 else x.work.entries)
      if v.dup = .sending ∧ w.dup = .stalled then taken.raise .volumeStalled v.id else taken := by
  have here : (s.putTicket k none).vol x.slot = some v := found
  subst record
  unfold State.answerTicket
  dsimp only
  rw [here]
  cases fail <;> rfl

/-- The state behind the answered ticket, as far as the head and the figures of SENT read it. -/
theorem answerTicket_night (fail : Bool) (found : s.vol x.slot = some v)
    (record : v.answered x.work (!fail) (s.profileOf v).retryLimit = w) :
    SameNight
      { s with
        dup := { s.dup with tickets := s.dup.tickets.set k none }
        cat := { s.cat with vols := s.cat.vols.set x.slot (some w) }
        poolFree := s.poolFree + if fail then (giveBack x.work v.send).2 else x.work.entries }
      (s.answerTicket k x (!fail)) := by
  rw [answerTicket_eq fail found record]
  exact ite_keeps (P := SameNight _) (fun _ => ⟨rfl, rfl, rfl, rfl⟩) fun _ => ⟨rfl, rfl, rfl, rfl⟩

theorem answerTicket_raises (fail : Bool) (found : s.vol x.slot = some v)
    (record : v.answered x.work (!fail) (s.profileOf v).retryLimit = w) (sending : v.dup = .sending)
    (stalled : w.dup = .stalled) :
    Raised s (s.answerTicket k x (!fail)) .volumeStalled v.id := by
  rw [answerTicket_eq fail found record]
  dsimp only
  rw [if_pos ⟨sending, stalled⟩]
  exact raise_raised (s := ticketTaken ..) .volumeStalled v.id

theorem result_ok (known : q.result ≤ 1) : (q.result == 0) = !(q.result == 1) := by
  rcases Nat.le_one_iff_eq_zero_or_eq_one.mp known with zero | one
  · rw [zero]
    rfl
  · rw [one]
    rfl

/-- What follows the completion of SENT: the test for an end, its step, the close of the window and an
issue pass (R151). -/
def sentFollowed (b : State) (i : Fin 8) : State :=
  ((b.testEnd i).dupEndStep i).closeIfDone.flushEvent.issuePass

theorem sentRequest_noTicket (known : q.result ≤ 1)
    (other : ∀ k x, s.ticket k = some x → x.number ≠ q.ticket) :
    sentRequest tag q s = s.answer 16 tag .noSuch (.sent) := by
  have nowhere : slots16.findSome? (ticketMatch s q.ticket) = none :=
    List.findSome?_eq_none_iff.mpr fun k _ => ticketMatch_none (other k)
  unfold sentRequest
  rw [if_neg (Nat.not_lt.mpr known)]
  unfold ticketMatch at nowhere
  rw [nowhere]

theorem sentRequest_answers (known : q.result ≤ 1) (here : s.ticket k = some x)
    (named : x.number = q.ticket)
    (first : ∀ j, j < k → ∀ y, s.ticket j = some y → y.number ≠ q.ticket) :
    sentRequest tag q s =
      sentFollowed ((s.answerTicket k x (q.result == 0)).answer 16 tag .ok
        ((s.answerTicket k x (q.result == 0)).sentBody x.slot)) x.slot := by
  have found := ticketMatch_first here named first
  unfold sentRequest
  rw [if_neg (Nat.not_lt.mpr known)]
  unfold ticketMatch at found
  rw [found]
  rfl

theorem sentFollowed_grows (b : State) (i : Fin 8) : Grows b (sentFollowed b i) :=
  ((((testEnd_grows ..).trans (dupEndStep_grows ..)).trans (closeIfDone_grows _)).trans
    (flushEvent_grows _)).trans (issuePass_grows _)

theorem dupEndStep_stalls (b : State) (i : Fin 8) :
    SameEvent .volumeStalled b (b.dupEndStep i) := by
  unfold State.dupEndStep
  split
  · exact .refl b
  rename_i v _
  refine .ite (fun _ => ?_) fun _ => .refl b
  have given : SameEvent .volumeStalled b
      (match v.base with
        | some old => b.giveRef i old
        | none => b) := by
    split
    · exact .of_changes (by decide) (giveRef_changes ..)
    · exact .refl b
  refine SameEvent.trans (given.trans ?_) ((sameEvent_evaluateIfOver (by decide) (by decide) _
    i).trans ((sameEvent_closeIfDone (by decide) (by decide) _).trans (sameEvent_flushEvent _)))
  rfl

theorem sentFollowed_sameEvent (b : State) (i : Fin 8) :
    SameEvent .volumeStalled b (sentFollowed b i) := by
  have tested : SameEvent .volumeStalled b (b.testEnd i) :=
    .of_changes (by decide) (testEnd_changes b i)
  exact ((tested.trans (dupEndStep_stalls _ i)).trans (sameEvent_closeIfDone (by decide) (by decide)
    _)).trans ((sameEvent_flushEvent _).trans (.of_events (issuePass_keeps _).1))

/-- With no end reached or due, no close and no head, nothing follows. -/
theorem sentFollowed_idle (found : b.vol i = some w) (going : b.endReached i w = false)
    (calm : w.endDue = false) (idle : b.head = none)
    (waits : b.dup.window ≠ .closing ∨ b.ticketsOut ≠ []) : SameNight b (sentFollowed b i) := by
  have flushed : SameNight b b.flushEvent := .of_port (flushEvent_changes b)
  unfold sentFollowed
  rw [testEnd_open found going, dupEndStep_waits found (.inl calm), closeIfDone_waits waits,
    issuePass_idle (flushed.head.trans idle)]
  exact flushed

theorem sentFollowed_closes (found : b.vol i = some w) (going : b.endReached i w = false)
    (closing : b.dup.window = .closing) (empty : b.ticketsOut = [])
    (settled : ∀ j z, b.vol j = some z → z.endDue = false) :
    (sentFollowed b i).dup.window = .closed := by
  unfold sentFollowed
  rw [testEnd_open found going, dupEndStep_waits found (.inl (settled i w found)),
    (issuePass_leaves _).2.1]
  have kept : b.closeIfDone.flushEvent.dup = b.closeIfDone.dup :=
    (flushEvent_changes _).2 .dup (by decide)
  rw [kept]
  exact closeIfDone_closes closing empty settled

/-- An end that the answered ticket reached is taken with notice room, and waits for it otherwise. -/
theorem sentFollowed_ending (found : b.vol i = some w) (reached : b.endReached i w = true) :
    ∃ z, (sentFollowed b i).vol i = some z ∧
      (stageOf z = (stageOf w).ended ∨
        stageOf z = { stageOf w with endDue := true } ∧ (sentFollowed b i).room = false) := by
  let due : Volume := { w with endDue := true }
  have stands : (b.putVol i (some due)).vol i = some due := vol_putVol_self ..
  unfold sentFollowed
  rw [testEnd_reached found reached]
  by_cases room : (b.putVol i (some due)).room = true
  · obtain ⟨y, here, ended⟩ := dupEndStep_ends stands rfl room
    have done : y.dup = .done := congrArg Stage.dup ended
    have closed := closeIfDone_vol here (by rw [done]; decide)
    have flushed := (vol_of_changes (by decide) (flushEvent_changes _) i).trans closed
    obtain ⟨z, last, same⟩ := issuePass_stage flushed
    exact ⟨z, last, .inl (same.trans ended)⟩
  · have full := Bool.eq_false_iff.mpr room
    rw [dupEndStep_waits stands (.inr full), closeIfDone_due stands rfl]
    have flushed := (vol_of_changes (by decide) (flushEvent_changes _) i).trans stands
    obtain ⟨z, last, same⟩ := issuePass_stage flushed
    exact ⟨z, last, .inr ⟨same, room_of_grows ((flushEvent_grows _).trans (issuePass_grows _)) full⟩⟩

/-! ### The request taken from the queue -/

/-- The ticket of the request at the head of the queue answered, and the completion placed. -/
def ticketAnswered (s : State) (k : Fin 16) (x : Ticket) (fail : Bool) (tag : Nat) : State :=
  (s.dropHead.answerTicket k x (!fail)).answer 16 tag .ok
    ((s.dropHead.answerTicket k x (!fail)).sentBody x.slot)

theorem sent_runs {r : Bytes} (takes : Takes s 16 r) (parsed : parseSent r = some q)
    (known : q.result ≤ 1) (here : s.ticket k = some x) (named : x.number = q.ticket)
    (first : ∀ j, j < k → ∀ y, s.ticket j = some y → y.number ≠ q.ticket) :
    let t := sentFollowed (ticketAnswered s k x (q.result == 1) (recordTag r)) x.slot
    exec .sent s = .next t ∧ ChangesOnly [.cat, .pool, .dup, .port] s t ∧
      Answered s t (reply 16 (recordTag r) .ok
        ((s.dropHead.answerTicket k x (!(q.result == 1))).sentBody x.slot)) := by
  intro t
  have runs : sentRequest (recordTag r) q s.dropHead = t := by
    rw [sentRequest_answers (s := s.dropHead) known here named first, result_ok known]
    rfl
  refine ⟨(whenReleased_taken takes parsed).trans (congrArg _ runs), ?_,
    answered_of_quiet (answerTicket_quiet ..) (sentFollowed_grows ..)⟩
  rw [← runs]
  exact andThen (by decide) (within (by decide) (dropHead_changes s)) (sentRequest_changes ..)

/-- The raise of a stall is the last of its kind in the step. -/
theorem ticketAnswered_raises (fail : Bool) (found : s.vol x.slot = some v)
    (stalls : (fail && v.dup == .sending && !v.endDue &&
      decide ((s.profileOf v).retryLimit < min (v.failures + 1) 255)) = true) :
    Raised s (sentFollowed (ticketAnswered s k x fail tag) x.slot) .volumeStalled v.id := by
  obtain ⟨sending, stalled⟩ := answered_stalls x.work stalls
  exact raised_between (a := s.dropHead) rfl
    (answerTicket_raises (s := s.dropHead) fail found rfl sending stalled)
    ((sameEvent_answer ..).trans (sentFollowed_sameEvent ..))

end Sent

end Sys2Proof.Proofs

/-! PROOFS. Cuts and their tickets: settles O31. -/

namespace Sys2Proof.Proofs

open Sys2Proof.Machine Sys2Proof.Safety

/-- Settles O31: the cut by `cutRun_going` and `cutRun_ending`, SENT by what `sentFollowed` does behind
the completion. -/
theorem cutsAndTheirTickets : Obligations.CutsAndTheirTickets := by
  refine ⟨?_, ?_⟩
  · intro s r q i v takes parsed named volume found owed epoch limit pool counted send calm
      merged w snaps u
    have below : ∀ y ∈ s.cat.snaps, y.slot = i → y.epoch < v.openEpoch := by
      obtain ⟨retained, -, -⟩ := counted
      exact fun y member slot =>
        (retained i v (findVol_some found)).2 y (mem_snapsOf.mpr ⟨member, slot⟩)
    have record : cutRecord v v.openEpoch = w := cutRecord_eq v v.openEpoch
    have stands : (cutMade s i v q.label).vol i = some w := record ▸ cutUntested_vol ..
    have night : SameNight u (cutMade s i v q.label) := by
      have := cutUntested_night (s := s.dropHead) (snaps := snaps) q.label below send rfl
        (cutLists_freed v)
      rwa [record] at this
    have port := (cutMade_changes s i v q.label).2 .port (by decide)
    have reaches := night.endReached i w
    have head := night.head
    obtain ⟨cat, dup, free, -⟩ := night
    obtain ⟨runs, answered, changes⟩ := snapshot_runs_cut takes parsed named volume found
      (snapshotCheck_passes (.inr ⟨rfl, owed⟩) epoch limit pool)
    refine ⟨_, runs, answered, changes, fun going => ?_, fun reached => ?_⟩
    · obtain ⟨kept, ⟨z, here, same⟩, idle⟩ := cutRun_going (tag := recordTag r)
        (e := v.openEpoch) (moved := v.sendEpoch.isSome) stands calm limit (reaches.trans going)
      rw [← record, cutRecord_stage, calm, stageOf, Stage.mk.injEq] at same
      obtain ⟨sending, due, sent, base, rest⟩ := same
      refine ⟨kept.trans (congrArg _ cat), ⟨z, here, sending, due, sent, base, rest⟩, fun idle' => ?_⟩
      obtain ⟨cat', dup', free'⟩ := idle (head.trans idle')
      exact ⟨cat'.trans cat, dup'.trans dup, free'.trans free⟩
    · obtain ⟨z, here, outcome, roomy⟩ := cutRun_ending (tag := recordTag r) (e := v.openEpoch)
        (moved := v.sendEpoch.isSome) stands limit (reaches.trans reached)
      rw [← record, cutRecord_stage] at outcome roomy
      have done (quiet : s.port.eventDue = false) (free : s.port.completions.length ≤ 54) :
          z.dup = .done := congrArg Stage.dup (roomy (by rw [port]; exact quiet)
            (by rw [port]; exact free))
      rcases outcome with ⟨waits, kept⟩ | ended
      · simp only [stageOf, Stage.mk.injEq] at waits
        obtain ⟨sending, due, sent, base, opened, current, full, deadline, cut⟩ := waits
        exact ⟨z, here, opened, current, full, deadline, cut,
          .inl ⟨sending, due, sent, base, kept.trans (congrArg _ cat)⟩, done⟩
      · simp only [stageOf, Stage.ended, Stage.mk.injEq] at ended
        obtain ⟨dup, due, sent, base, opened, current, full, deadline, cut⟩ := ended
        exact ⟨z, here, opened, current, full, deadline, cut, .inr ⟨dup, due, sent, base⟩, done⟩
  · intro s r q takes parsed
    refine ⟨fun bad => refused_taken rfl takes parsed (if_pos bad), fun known other =>
      refused_taken rfl takes parsed (sentRequest_noTicket (s := s.dropHead) known other), ?_⟩
    intro k x v here named first found known fail failures stalls w u
    have record : v.answered x.work (!fail) (s.profileOf v).retryLimit = w := answered_eq ..
    obtain ⟨id, send, due⟩ := record ▸ answered_keeps v x.work (!fail) (s.profileOf v).retryLimit
    have taken : SameNight u (s.dropHead.answerTicket k x (!fail)) :=
      answerTicket_night (s := s.dropHead) fail found record
    have night : SameNight u (ticketAnswered s k x fail (recordTag r)) :=
      taken.trans (.of_port (answer_changes ..))
    have written : u.vol x.slot = some w := vol_putVol_self s x.slot (some w)
    have stands := (night.vol x.slot).trans written
    have body : (s.dropHead.answerTicket k x (!fail)).sentBody x.slot =
        .sent v.id w.dup (u.backlogOf x.slot w) w.outstanding u.ticketsOut.length := by
      unfold State.sentBody
      rw [(taken.vol x.slot).trans written, ← id, ← taken.backlogOf, ← taken.ticketsOut]
    have reaches := night.endReached x.slot w
    have head := night.head
    have vols := night.vol
    have out := night.ticketsOut
    obtain ⟨cat, dup, free, -⟩ := night
    obtain ⟨runs, changes, answered⟩ := sent_runs takes parsed known here named first
    refine ⟨_, runs, changes, body ▸ answered, ticketAnswered_raises fail found, ?_, ?_, ?_⟩
    · intro going calm idle waits
      obtain ⟨cat', dup', free', -⟩ := sentFollowed_idle stands (reaches.trans going)
        (due.trans calm) (head.trans idle) (by rwa [dup, out])
      exact ⟨cat'.trans cat, dup'.trans dup, free'.trans free⟩
    · intro reached
      obtain ⟨z, last, outcome⟩ := sentFollowed_ending stands (reaches.trans reached)
      refine ⟨z, last, outcome.imp (fun ended => ?_) fun waits => ?_⟩
      · simp only [stageOf, Stage.ended, Stage.mk.injEq] at ended
        obtain ⟨done, calm, unsent, base, -⟩ := ended
        exact ⟨done, base.trans send, unsent, calm⟩
      · obtain ⟨same, full⟩ := waits
        simp only [stageOf, Stage.mk.injEq] at same
        obtain ⟨dup', pending, send', -⟩ := same
        exact ⟨dup'.trans (endReached_sending reached), pending, send'.trans send, full⟩
    · intro closing empty going settled
      exact sentFollowed_closes stands (reaches.trans going) (by rwa [dup]) (out.trans empty)
        fun j z slot => settled j z ((vols j).symm.trans slot)

end Sys2Proof.Proofs

/-! PROOFS. The hold lock (R100, R101): settles O20, and the commands that leave a CLOSED lock where
it is. -/

namespace Sys2Proof.Proofs

open Sys2Proof.Machine Sys2Proof.Safety

variable {s t : State}

/-! ### LOCK_HOLDS (R101) -/

theorem lockRequest_closed (closed : s.cat.lock = .closed) (tag : Nat) (q : Unit) :
    lockRequest tag q s = s.answer 10 tag .ok (.lockHolds .closed false) := by
  unfold lockRequest
  rw [closed]
  dsimp only
  rw [if_neg (by decide), closed]
  rfl

theorem lockRequest_closes (other : s.cat.lock ≠ .closed) (tag : Nat) (q : Unit) :
    lockRequest tag q s =
      (s.setCat { s.cat with lock := .closed, lockClosedSince := true }).answer 10 tag .ok
        (.lockHolds .closed true) := by
  have closes : (s.cat.lock != .closed) = true := bne_iff_ne.mpr other
  unfold lockRequest
  rw [closes]
  rfl

theorem cat_answer (s : State) (kind tag : Nat) (st : Status) (b : Body) :
    (s.answer kind tag st b).cat = s.cat := (answer_changes ..).2 .cat (by decide)

/-- Settles O20: by the lock that the request finds. -/
theorem lockHoldsClosesTheLock : Obligations.LockHoldsClosesTheLock := by
  intro s r takes parsed
  have run : exec .lockHolds s = .next (lockRequest (recordTag r) () s.dropHead) :=
    whenReleased_taken takes parsed
  refine ⟨_, run, ?_⟩
  have changes : ChangesOnly [.cat, .port] s (lockRequest (recordTag r) () s.dropHead) :=
    andThen (by decide) (within (by decide) (dropHead_changes s)) (lockRequest_changes ..)
  by_cases closed : s.cat.lock = .closed
  · rw [lockRequest_closed (s := s.dropHead) closed] at changes ⊢
    rw [cat_answer]
    have told : decide (s.cat.lock ≠ .closed) = false := by simp [closed]
    rw [told]
    exact ⟨closed, answered_alone (.refl _), rfl, rfl, fun _ => rfl, changes⟩
  · rw [lockRequest_closes (s := s.dropHead) closed] at changes ⊢
    rw [cat_answer]
    have told : decide (s.cat.lock ≠ .closed) = true := by simp [closed]
    rw [told]
    exact ⟨rfl, answered_alone (.of_changes (setCat_changes ..) (by decide)), rfl, rfl,
      fun again => absurd again closed, changes⟩

/-! ### A CLOSED lock in SERVING (R100) -/

/-- What a request's command does: its rule behind the checks of R166, or no more than an answer. -/
theorem request_cases {α : Type} {kind : Nat} {parse : Bytes → Option α} {blank : Body}
    {carry : Nat → α → State → State}
    (h : whenReleased s (takeRequest kind parse blank carry) = .next t) :
    ChangesOnly [.port] s t ∨
      ∃ tag q, servedIn s.part kind = true ∧ t = carry tag q s.dropHead := by
  obtain ⟨-, rfl⟩ | ⟨-, rfl⟩ := next_of_whenReleased h
  · exact .inl (.refl _ _)
  have refused : ∀ {tag st}, ChangesOnly [.port] s (s.dropHead.answer kind tag st blank) :=
    refused_changes
  unfold takeRequest
  split
  · exact .inl (.refl _ _)
  split
  · dsimp only
    split
    · exact .inl refused
    · split
      · exact .inl refused
      · split
        · rename_i served
          exact .inr ⟨_, _, served, rfl⟩
        · exact .inl refused
  · exact .inl (.refl _ _)

/-- A kind of request that is not served in the part state is answered at most. -/
theorem request_unserved {α : Type} {kind : Nat} {parse : Bytes → Option α} {blank : Body}
    {carry : Nat → α → State → State} (unserved : servedIn s.part kind = false)
    (h : whenReleased s (takeRequest kind parse blank carry) = .next t) :
    ChangesOnly [.port] s t := by
  obtain port | ⟨_, _, served, -⟩ := request_cases h
  · exact port
  · exact absurd (unserved.symm.trans served) (by decide)

/-- In SERVING with a CLOSED lock only a reset changes the modes (R100, R177, R180). -/
theorem closed_changesModes {c : Instr} (modes : changesModes c = true) (part : s.part = .serving)
    (closed : s.cat.lock = .closed) (power : ∀ n m, c ≠ .powerOnReset n m) (restart : c ≠ .restart)
    (h : exec c s = .next t) : ChangesOnly [.port] s t := by
  cases c <;> simp only [exec] at h
  case powerOnReset n m => exact absurd rfl (power n m)
  case restart => exact absurd rfl restart
  case configCheck =>
    refine whenReleased_changes ?_ h
    rw [if_neg (by simp [part])]
    exact .refl _ _
  case loadDone => exact request_unserved (by rw [part]; rfl) h
  case lockHolds =>
    obtain port | ⟨tag, q, -, rfl⟩ := request_cases h
    · exact port
    · rw [lockRequest_closed (s := s.dropHead) closed]
      exact refused_changes
  all_goals exact nomatch modes

/-- A CLOSED lock stands in SERVING until a reset (R100). -/
theorem closed_stands {c : Instr} (part : s.part = .serving) (closed : s.cat.lock = .closed)
    (power : ∀ n m, c ≠ .powerOnReset n m) (restart : c ≠ .restart) (h : exec c s = .next t) :
    t.cat.lock = .closed := by
  cases modes : changesModes c with
  | true =>
    have cat : t.cat = s.cat := (closed_changesModes modes part closed power restart h).2 .cat
      (by decide)
    rw [cat, closed]
  | false => exact (congrArg Prod.fst (exec_steady c modes h).lock).trans closed

end Sys2Proof.Proofs

/-! PROOFS. Which snapshots are held (R91): the operations of the model keep it, since a deletion
takes only a snapshot that is not held (R77) and a new one is not held (R74). -/

namespace Sys2Proof.Proofs

open Sys2Proof.Machine Sys2Proof.Safety

/-! ### The marks of the snapshots -/

/-- What the holds read of a snapshot. -/
structure HoldMark where
  slot : Fin 8
  epoch : Nat
  held : Bool

/-- No two snapshots of a volume share an epoch (R71). -/
def MarksDistinct (ms : List HoldMark) : Prop :=
  ms.Pairwise fun x y => ¬(x.slot = y.slot ∧ x.epoch = y.epoch)

/-- The marks of the snapshots that are held. -/
def heldMarks (ms : List HoldMark) : List HoldMark := ms.filter (·.held)

section Marks

variable {ms : List HoldMark} {m k : HoldMark}

theorem MarksDistinct.unique (h : MarksDistinct ms) (hm : m ∈ ms) (hk : k ∈ ms)
    (slot : m.slot = k.slot) (epoch : m.epoch = k.epoch) : m = k := by
  have keys : (ms.map fun x => (x.slot, x.epoch)).Nodup :=
    List.pairwise_map.mpr (h.imp fun apart same => apart (Prod.mk.injEq .. ▸ same))
  exact List.inj_on_of_nodup_map keys hm hk (Prod.ext slot epoch)

/-- The marks without those of one volume and epoch. -/
def dropMark (i : Fin 8) (e : Nat) (ms : List HoldMark) : List HoldMark :=
  ms.filter fun k => !(k.slot == i && k.epoch == e)

/-- A snapshot that is not held leaves (R77). -/
theorem MarksDistinct.drop (h : MarksDistinct ms) (hm : m ∈ ms) (free : m.held = false) :
    MarksDistinct (dropMark m.slot m.epoch ms) ∧
      heldMarks (dropMark m.slot m.epoch ms) = heldMarks ms := by
  refine ⟨h.filter _, ?_⟩
  unfold heldMarks dropMark
  rw [List.filter_filter]
  refine List.filter_congr fun k hk => ?_
  by_cases same : k.slot = m.slot ∧ k.epoch = m.epoch
  · rw [h.unique hk hm same.1 same.2, free, Bool.false_and]
  · have stays : (!(k.slot == m.slot && k.epoch == m.epoch)) = true := by
      simpa [imp_iff_not_or] using same
    rw [stays, Bool.and_true]

/-- A snapshot that is not held joins under an epoch that is new to its volume (R74). -/
theorem MarksDistinct.add (h : MarksDistinct ms) (free : m.held = false)
    (new : ∀ k ∈ ms, k.slot = m.slot → k.epoch ≠ m.epoch) :
    MarksDistinct (ms ++ [m]) ∧ heldMarks (ms ++ [m]) = heldMarks ms := by
  constructor
  · refine List.pairwise_append.mpr ⟨h, List.pairwise_singleton .., fun k hk n hn same => ?_⟩
    obtain rfl := List.mem_singleton.mp hn
    exact new k hk same.1 same.2
  · unfold heldMarks
    rw [List.filter_append, List.filter_cons_of_neg (by simp [free]), List.filter_nil,
      List.append_nil]

end Marks

/-! ### The calculus -/

variable {l : List Block} {s t u : State} {i : Fin 8} {e : Nat} {v : Volume} {x : Snapshot}

/-- The mark of a snapshot. -/
def holdMark (x : Snapshot) : HoldMark := { slot := x.slot, epoch := x.epoch, held := x.hold }

/-- The marks of all snapshots. -/
def holdMarks (s : State) : List HoldMark := s.cat.snaps.map holdMark

/-- Where epochs are distinct they stay so, and the same snapshots are held. -/
structure HoldsKept (s t : State) : Prop where
  keeps : MarksDistinct (holdMarks s) →
    MarksDistinct (holdMarks t) ∧ heldMarks (holdMarks t) = heldMarks (holdMarks s)

theorem HoldsKept.of_marks (h : holdMarks t = holdMarks s) : HoldsKept s t :=
  ⟨fun distinct => ⟨h ▸ distinct, congrArg heldMarks h⟩⟩

theorem HoldsKept.refl (s : State) : HoldsKept s s := .of_marks rfl

theorem HoldsKept.trans (h : HoldsKept s t) (g : HoldsKept t u) : HoldsKept s u := by
  refine ⟨fun distinct => ?_⟩
  obtain ⟨middle, first⟩ := h.keeps distinct
  obtain ⟨last, second⟩ := g.keeps middle
  exact ⟨last, second.trans first⟩

/-- Composition with the later step written first. -/
theorem HoldsKept.after (g : HoldsKept t u) (h : HoldsKept s t) : HoldsKept s u := h.trans g

theorem HoldsKept.of_snaps (h : t.cat.snaps = s.cat.snaps) : HoldsKept s t :=
  .of_marks (congrArg (List.map holdMark) h)

/-- A step that leaves the catalogue alone. -/
theorem HoldsKept.of_changes (hp : Block.cat ∉ l) (h : ChangesOnly l s t) : HoldsKept s t :=
  .of_snaps (congrArg Catalogue.snaps (h.2 .cat hp))

theorem HoldsKept.ite {p : Prop} [Decidable p] {a b : State} (h : p → HoldsKept s a)
    (g : ¬p → HoldsKept s b) : HoldsKept s (if p then a else b) := ite_keeps (P := HoldsKept s) h g

/-- A further step that a condition decides on. -/
theorem HoldsKept.thenIf {p : Prop} [Decidable p] (h : HoldsKept s t) (g : HoldsKept t u) :
    HoldsKept s (if p then u else t) := .ite (fun _ => h.trans g) fun _ => h

/-- A further step unless a condition holds. -/
theorem HoldsKept.thenUnless {p : Prop} [Decidable p] (h : HoldsKept s t) (g : HoldsKept t u) :
    HoldsKept s (if p then t else u) := .ite (fun _ => h) fun _ => h.trans g

theorem HoldsKept.foldl {α : Type} {f : State → α → State} (h : ∀ s a, HoldsKept s (f s a))
    (xs : List α) (s : State) : HoldsKept s (xs.foldl f s) :=
  foldl_keeps (P := HoldsKept s) (fun u a hu => hu.trans (h u a)) xs s (.refl s)

theorem answer_holdsKept (s : State) (kind tag : Nat) (st : Status) (b : Body) :
    HoldsKept s (s.answer kind tag st b) := .of_changes (by decide) (answer_changes ..)

theorem notice_holdsKept (s : State) (n : Nat) (b : Body) : HoldsKept s (s.notice n b) :=
  .of_changes (by decide) (notice_changes ..)

theorem flushEvent_holdsKept (s : State) : HoldsKept s s.flushEvent :=
  .of_changes (by decide) (flushEvent_changes _)

theorem setDup_holdsKept (s : State) (d : Duplication) : HoldsKept s (s.setDup d) := .of_snaps rfl

theorem putVol_holdsKept (s : State) (i : Fin 8) (v : Option Volume) : HoldsKept s (s.putVol i v) :=
  .of_snaps rfl

theorem modifyVol_holdsKept (s : State) (i : Fin 8) (f : Volume → Volume) :
    HoldsKept s (s.modifyVol i f) := by
  unfold State.modifyVol
  split
  · exact .refl s
  · exact putVol_holdsKept ..

/-! ### A snapshot changed, deleted, or made -/

theorem holdMarks_modifySnap {f : Snapshot → Snapshot} (same : ∀ z, holdMark (f z) = holdMark z) :
    holdMarks (s.modifySnap i e f) = holdMarks s := by
  unfold holdMarks State.modifySnap
  refine (List.map_map ..).trans (List.map_congr_left fun z _ => ?_)
  rw [Function.comp_apply]
  split
  · exact same z
  · rfl

theorem modifySnap_holdsKept {f : Snapshot → Snapshot} (same : ∀ z, holdMark (f z) = holdMark z) :
    HoldsKept s (s.modifySnap i e f) := .of_marks (holdMarks_modifySnap same)

theorem takeRef_holdsKept (s : State) (i : Fin 8) (e : Nat) : HoldsKept s (s.takeRef i e) :=
  modifySnap_holdsKept fun _ => rfl

theorem giveRef_holdsKept (s : State) (i : Fin 8) (e : Nat) : HoldsKept s (s.giveRef i e) :=
  modifySnap_holdsKept fun _ => rfl

theorem holdMarks_retainBlocks (s : State) (i : Fin 8) (e n : Nat) (b : Bucket) :
    holdMarks (s.retainBlocks i e n b) = holdMarks s := by
  cases found : s.findSnap i e with
  | none => rw [retainBlocks_absent found]
  | some x =>
    exact (congrArg (fun c : Catalogue => c.snaps.map holdMark) (cat_retainBlocks found)).trans
      (holdMarks_modifySnap fun _ => rfl)

theorem holdMarks_dropSnap (s : State) (i : Fin 8) (e : Nat) :
    holdMarks (dropSnap s i e) = dropMark i e (holdMarks s) := by
  unfold holdMarks dropMark
  rw [List.filter_map]
  rfl

/-- A deletion step of a snapshot that is not held (R77, R78). -/
theorem deletionStep_holdsKept (found : s.vol i = some v) (snap : s.findSnap i e = some x)
    (free : x.hold = false) : HoldsKept s (s.deletionStep i v x).2 := by
  obtain ⟨mem, rfl, rfl⟩ := findSnap_some snap
  have moved : holdMarks (bucketsMoved s x.slot v x) = holdMarks s :=
    retainAll_keeps (P := fun u => holdMarks u = holdMarks s)
      (fun u b same => (holdMarks_retainBlocks u _ _ _ b).trans same) _ rfl
  have marks : holdMarks (s.deletionStep x.slot v x).2 =
      dropMark x.slot x.epoch (holdMarks s) := by
    rw [holdMarks, deletionStep_snaps found, ← moved]
    exact holdMarks_dropSnap ..
  refine ⟨fun distinct => ?_⟩
  rw [marks]
  exact distinct.drop (List.mem_map_of_mem (f := holdMark) mem) free

/-- A snapshot made under the open epoch, which is new to its volume (R72, R74). -/
theorem makeSnapshot_holdsKept {kind : SnapKind} {label : Nat} (h : RetentionOk s)
    (found : s.vol i = some v) : HoldsKept s (s.makeSnapshot i v kind label) := by
  have marks : holdMarks (s.makeSnapshot i v kind label) =
      holdMarks s ++ [holdMark (s.newSnapshot i v kind label)] := List.map_append ..
  refine ⟨fun distinct => ?_⟩
  rw [marks]
  refine distinct.add rfl fun k hk slot => ?_
  obtain ⟨z, hz, rfl⟩ := List.mem_map.mp hk
  exact (h.below i _ (volCounts_of found) _ (List.mem_map_of_mem hz) slot).ne

/-! ### The evaluation (R80, R82) -/

/-- The candidate for expiry is not held (R80). -/
theorem candidate_unheld (h : s.candidate i = some e) :
    ∃ x ∈ s.cat.snaps, x.slot = i ∧ x.epoch = e ∧ x.hold = false := by
  obtain ⟨x, hx, rfl⟩ := List.mem_map.mp (least_mem h)
  obtain ⟨mine, eligible⟩ := List.mem_filter.mp hx
  obtain ⟨mem, slot⟩ := mem_snapsOf.mp mine
  have deletable : x.deletable = true := (Bool.and_eq_true_iff.mp eligible).1
  exact ⟨x, mem, slot, rfl, (deletable_iff.mp deletable).1⟩

theorem expiring_candidate (h : expiring s i v = some x) : s.candidate i = some x.epoch := by
  obtain ⟨e, candidate, snap⟩ := Option.bind_eq_some_iff.mp h
  rw [(findSnap_some snap).2.2]
  split at candidate
  · exact candidate
  · cases candidate

/-- The snapshot that an evaluation deletes is not held. -/
theorem expiring_unheld (distinct : MarksDistinct (holdMarks s)) (h : expiring s i v = some x) :
    x.hold = false := by
  obtain ⟨z, hz, slot, epoch, free⟩ := candidate_unheld (expiring_candidate h)
  obtain ⟨mem, here, -⟩ := findSnap_some (expiring_found h)
  have same : holdMark x = holdMark z := distinct.unique (List.mem_map_of_mem mem)
    (List.mem_map_of_mem hz) (here.trans slot.symm) epoch.symm
  exact (congrArg HoldMark.held same).trans free

theorem rounds_holdsKept (fuel : Nat) (i : Fin 8) (s : State) :
    HoldsKept s (evaluateRounds fuel i s) := by
  induction fuel generalizing s with
  | zero => exact .refl s
  | succ fuel ih =>
    cases found : s.vol i with
    | none =>
      unfold evaluateRounds
      rw [found]
      exact .refl s
    | some v =>
      cases above : v.overLimit with
      | false =>
        rw [rounds_within found above]
        exact putVol_holdsKept ..
      | true =>
        rw [rounds_over found above]
        split
        · exact .ite (fun _ => putVol_holdsKept ..) fun _ =>
            (flushEvent_holdsKept _).after (.of_snaps rfl)
        · rename_i x next
          refine .ite (fun _ => .after (ih _) ?_) fun _ => putVol_holdsKept ..
          refine (flushEvent_holdsKept _).after (HoldsKept.trans (t := (s.deletionStep i v x).2)
            ⟨fun distinct => ?_⟩ (.of_snaps rfl))
          exact (deletionStep_holdsKept found (expiring_found next)
            (expiring_unheld distinct next)).keeps distinct

theorem evaluate_holdsKept (s : State) (i : Fin 8) : HoldsKept s (s.evaluate i) :=
  rounds_holdsKept ..

theorem evaluateIfOver_holdsKept (s : State) (i : Fin 8) : HoldsKept s (s.evaluateIfOver i) := by
  unfold State.evaluateIfOver
  split
  · exact .refl s
  · exact .ite (fun _ => evaluate_holdsKept ..) fun _ => .refl s

theorem evaluateWaiting_holdsKept (s : State) : HoldsKept s s.evaluateWaiting := by
  refine .ite (fun _ => .foldl (fun u i => ?_) _ s) fun _ => .refl s
  unfold State.evaluateFlagged
  split
  · exact .refl u
  · exact .ite (fun _ => evaluate_holdsKept ..) fun _ => .refl u

/-! ### Change lists and duplication -/

theorem appendCurrent_holdsKept (s : State) (i : Fin 8) (a : Extent) :
    HoldsKept s (s.appendCurrent i a) := by
  unfold State.appendCurrent
  split
  · exact .refl s
  · exact .ite (fun _ => .refl s) fun _ => .ite (fun _ => .of_snaps rfl) fun _ => .of_snaps rfl

theorem appendExtent_holdsKept (s : State) (volume start length : Nat) :
    HoldsKept s (s.appendExtent volume start length) := by
  unfold State.appendExtent
  split
  · exact .refl s
  · exact .ite (fun _ => .refl s) fun _ => appendCurrent_holdsKept ..

theorem issuePass_holdsKept (s : State) : HoldsKept s s.issuePass :=
  .of_snaps (issuePass_leaves s).1

theorem issueIfFreed_holdsKept (s : State) (n : Nat) : HoldsKept s (s.issueIfFreed n) :=
  .ite (fun _ => issuePass_holdsKept s) fun _ => .refl s

theorem closeIfDone_holdsKept (s : State) : HoldsKept s s.closeIfDone := by
  refine closeIfDone_keeps (P := HoldsKept s) (fun u j hu => hu.trans ?_) (.of_snaps rfl) (.refl s)
  unfold closeVolume
  split
  · exact .refl u
  · exact .ite (fun _ => .of_snaps rfl) fun _ => .ite (fun _ => .of_snaps rfl) fun _ => .refl u

theorem minuteChanged_holdsKept (s : State) (m : Nat) : HoldsKept s (s.minuteChanged m) := by
  have opened : HoldsKept s s.openWindow :=
    .trans (.after (.foldl (fun u i => modifyVol_holdsKept u i _) _ _) (setDup_holdsKept ..))
      (setDup_holdsKept ..)
  unfold State.minuteChanged
  refine .ite (fun _ => ?_) fun _ => .refl s
  split
  · exact .ite (fun _ => opened) fun _ => .refl s
  · exact .ite (fun _ => .refl s) fun _ => (closeIfDone_holdsKept _).after (.of_snaps rfl)
  · exact .refl s

theorem placeCuts_holdsKept (s : State) : HoldsKept s s.placeCuts := by
  refine .foldl (fun u i => ?_) _ s
  split
  · exact .refl u
  · exact .ite (fun _ => .of_snaps rfl) fun _ => .refl u

theorem afterMinute_holdsKept (s : State) : HoldsKept s s.afterMinute :=
  ((placeCuts_holdsKept _).after (flushEvent_holdsKept s)).trans (issuePass_holdsKept _)

theorem testEnd_holdsKept (s : State) (i : Fin 8) : HoldsKept s (s.testEnd i) := by
  unfold State.testEnd
  split
  · exact .refl s
  · exact .ite (fun _ => putVol_holdsKept ..) fun _ => .refl s

theorem dupEndStep_holdsKept (s : State) (i : Fin 8) : HoldsKept s (s.dupEndStep i) := by
  unfold State.dupEndStep
  split
  · exact .refl s
  · rename_i v _
    refine .ite (fun _ => ?_) fun _ => .refl s
    have given : HoldsKept s (match v.base with | some b => s.giveRef i b | none => s) := by
      split
      · exact giveRef_holdsKept ..
      · exact .refl s
    exact ((((given.trans (putVol_holdsKept ..)).trans (notice_holdsKept ..)).trans
      (evaluateIfOver_holdsKept ..)).trans (closeIfDone_holdsKept _)).trans (flushEvent_holdsKept _)

theorem testAtRisk_holdsKept (s : State) : HoldsKept s s.testAtRisk := by
  refine .ite (fun _ => ?_) fun _ => .refl s
  refine List.foldlRecOn (motive := fun acc : Nat × State => HoldsKept s acc.2) _ _ (.refl s)
    fun acc hacc x _ => hacc.trans ?_
  unfold riskStep
  split
  · split
    · exact .of_snaps rfl
    · exact .refl _
  · exact .refl _

theorem answerTicket_holdsKept (s : State) (k : Fin 16) (a : Ticket) (ok : Bool) :
    HoldsKept s (s.answerTicket k a ok) := by
  unfold State.answerTicket
  dsimp only
  split
  · exact .of_snaps rfl
  · exact .ite (fun _ => .of_snaps rfl) fun _ => .of_snaps rfl

/-! ### Restore jobs and the arrival of room -/

theorem freeContext_holdsKept (s : State) (c : Fin 4) (a : Context) :
    HoldsKept s (s.freeContext c a) :=
  (giveRef_holdsKept ..).after (.of_snaps rfl)

theorem placeCopies_holdsKept (s : State) : HoldsKept s s.placeCopies :=
  .of_changes (by decide) (placeCopies_changes _)

theorem testJobEnd_holdsKept (s : State) (c : Fin 4) : HoldsKept s (s.testJobEnd c) :=
  .of_changes (by decide) (testJobEnd_changes ..)

theorem restoreEnds_holdsKept (s : State) : HoldsKept s s.restoreEnds :=
  .ite (fun _ => (issuePass_holdsKept _).after (.of_snaps rfl)) fun _ => .of_snaps rfl

theorem restoreEndStep_holdsKept (s : State) (c : Fin 4) : HoldsKept s (s.restoreEndStep c) := by
  unfold State.restoreEndStep
  split
  · exact .refl s
  · rename_i a _
    refine .ite (fun _ => ?_) fun _ => .refl s
    have removed : HoldsKept s (match a.handle.bind s.entryByHandle with
        | some e => s.removeEntry e fun o => o
        | none => s) := by
      split
      · exact .of_changes (by decide) (removeEntry_changes ..)
      · exact .refl s
    exact ((((removed.trans (freeContext_holdsKept ..)).trans (notice_holdsKept ..)).trans
      (restoreEnds_holdsKept _)).trans (evaluateIfOver_holdsKept ..)).trans (flushEvent_holdsKept _)

theorem assemblyTimeout_holdsKept (s : State) (c : Fin 4) : HoldsKept s (s.assemblyTimeout c) := by
  unfold State.assemblyTimeout
  split
  · exact .refl s
  · exact .ite (fun _ => (((freeContext_holdsKept ..).trans (notice_holdsKept ..)).trans
      (evaluateIfOver_holdsKept ..)).trans (flushEvent_holdsKept _)) fun _ => .refl s

theorem roomArrives_holdsKept (s : State) : HoldsKept s s.roomArrives := by
  have jobs : HoldsKept s (slots4.foldl (fun s c => (s.assemblyTimeout c).restoreEndStep c)
      s.flushEvent) :=
    .after (.foldl (fun u c => (assemblyTimeout_holdsKept u c).trans
      (restoreEndStep_holdsKept _ c)) _ _) (flushEvent_holdsKept s)
  have ends := jobs.trans (.foldl dupEndStep_holdsKept slots8 _)
  exact (((ends.trans (evaluateWaiting_holdsKept _)).trans (placeCuts_holdsKept _)).trans
    (placeCopies_holdsKept _)).trans (issuePass_holdsKept _)

end Sys2Proof.Proofs

/-! PROOFS. Every command that is not a reset keeps the holds while the lock is CLOSED (R91, R100,
R102): settles O21. -/

namespace Sys2Proof.Proofs

open Sys2Proof.Machine Sys2Proof.Safety

variable {s t : State}

/-! ### Requests of the quota and of the restore jobs -/

theorem finishCommit_holdsKept (s : State) (tag : Nat) (q : CommitReq) (st : Status)
    (charged used : Nat) (quota : QuotaState) :
    HoldsKept s (s.finishCommit tag q st charged used quota) :=
  ((appendExtent_holdsKept ..).trans (answer_holdsKept ..)).trans (issueIfFreed_holdsKept ..)

theorem usedChanged_holdsKept (s : State) (id : OwnerId) (before : Nat) :
    HoldsKept s (s.usedChanged id before) := .of_changes (by decide) (usedChanged_changes ..)

theorem commitLate_holdsKept (tag : Nat) (q : CommitReq) (s : State) :
    HoldsKept s (commitLate tag q s) := by
  unfold commitLate
  split
  · exact finishCommit_holdsKept ..
  · have raised := raise_changes s .lateCommit q.owner.toNat
    dsimp only
    split
    · exact (finishCommit_holdsKept ..).after (.of_changes (by decide) raised)
    · rename_i made
      exact ((usedChanged_holdsKept ..).trans (finishCommit_holdsKept ..)).after
        (.trans (.of_changes (by decide) raised) (.of_changes (by decide)
          ((ensureOwner_changes _ _ _ made).trans (touchOwner_changes ..))))

theorem commitRequest_holdsKept (tag : Nat) (q : CommitReq) (s : State) :
    HoldsKept s (commitRequest tag q s) := by
  unfold commitRequest
  refine .ite (fun _ => answer_holdsKept ..) fun _ => ?_
  split
  · exact answer_holdsKept ..
  split
  · exact commitLate_holdsKept ..
  · exact .ite (fun _ => answer_holdsKept ..) fun _ =>
      ((usedChanged_holdsKept ..).trans (finishCommit_holdsKept ..)).after
        (.of_changes (by decide) (removeEntry_changes ..))

theorem releaseRetention_holdsKept (s : State) (i : Fin 8) (v : Volume) (birth c : Nat) :
    HoldsKept s (s.releaseRetention i v birth c).2.2 := by
  by_cases none : retainedBlocks s i v birth c = 0
  · rw [releaseRetention_none none]
    exact .refl s
  · obtain ⟨e, -, run⟩ := releaseRetention_some (Nat.pos_of_ne_zero none)
    rw [run]
    exact (modifyVol_holdsKept ..).after (.of_marks (holdMarks_retainBlocks ..))

theorem releaseRequest_holdsKept (tag : Nat) (q : ReleaseReq) (s : State) :
    HoldsKept s (releaseRequest tag q s) := by
  unfold releaseRequest
  refine .ite (fun _ => answer_holdsKept ..) fun _ => ?_
  split
  · exact answer_holdsKept ..
  · refine .ite (fun _ => answer_holdsKept ..) fun _ => ?_
    have quota : HoldsKept s (s.releaseQuota q.owner q.blocks) :=
      .of_changes (by decide) (releaseQuota_changes ..)
    exact (HoldsKept.thenUnless (((quota.trans (releaseRetention_holdsKept ..)).trans
      (appendExtent_holdsKept ..)).trans (answer_holdsKept ..)) (evaluate_holdsKept ..)).trans
      (issueIfFreed_holdsKept ..)

theorem openRequest_holdsKept (tag : Nat) (q : OpenReq) (s : State) :
    HoldsKept s (openRequest tag q s) := by
  unfold openRequest
  refine .ite (fun _ => answer_holdsKept ..) fun _ => ?_
  split
  · rename_i i _ j _ _ _
    refine .ite (fun _ => answer_holdsKept ..) fun _ => ?_
    split
    · exact answer_holdsKept ..
    · rename_i c _
      have opened : HoldsKept s ((s.putContext c (some (s.newContext q i j))).takeRef i q.epoch) :=
        (takeRef_holdsKept ..).after (.of_changes (by decide) (putContext_changes ..))
      exact (opened.trans (.of_changes (by decide) (setRsc_changes ..))).trans (answer_holdsKept ..)
  · exact answer_holdsKept ..

/-- The end of a job that never ran. -/
theorem freeAnswerEvaluate_holdsKept (s : State) (c : Fin 4) (x : Context) (kind tag : Nat)
    (st : Status) (b : Body) (i : Fin 8) :
    HoldsKept s (((s.freeContext c x).answer kind tag st b).evaluateIfOver i) :=
  ((freeContext_holdsKept ..).trans (answer_holdsKept ..)).trans (evaluateIfOver_holdsKept ..)

theorem itemRequest_holdsKept (tag : Nat) (q : ItemReq) (s : State) :
    HoldsKept s (itemRequest tag q s) := by
  unfold itemRequest
  refine .ite (fun _ => answer_holdsKept ..) fun _ => ?_
  split
  · exact answer_holdsKept ..
  · refine .ite (fun _ => answer_holdsKept ..) fun _ => ?_
    split
    · exact freeAnswerEvaluate_holdsKept ..
    · exact (answer_holdsKept ..).after (.of_changes (by decide) (putContext_changes ..))

theorem goRequest_holdsKept (tag : Nat) (q : JobReq) (s : State) :
    HoldsKept s (goRequest tag q s) := by
  have started : ∀ {u : State} {c x handle},
      HoldsKept u (u.startJob c x handle) := .of_changes (by decide) (startJob_changes ..)
  unfold goRequest
  refine .ite (fun _ => answer_holdsKept ..) fun _ => ?_
  split
  · exact answer_holdsKept ..
  · rename_i c x _
    refine .ite (fun _ => answer_holdsKept ..) fun _ =>
      .ite (fun _ => freeAnswerEvaluate_holdsKept ..) fun _ => ?_
    split
    · rename_i cls _
      have admitted : HoldsKept s (s.admitBlocks x.owner cls (x.items.map (·.length)).sum
          (s.volumeId x.targetSlot) (.restore c)).2 := .of_changes (by decide) (admit_changes ..)
      exact .ite (fun _ => ((admitted.trans started).trans (answer_holdsKept ..)).trans
        (placeCopies_holdsKept _)) fun _ => admitted.trans (freeAnswerEvaluate_holdsKept ..)
    · exact (started.trans (answer_holdsKept ..)).trans (placeCopies_holdsKept _)

theorem cancelJobRequest_holdsKept (tag : Nat) (q : JobReq) (s : State) :
    HoldsKept s (cancelJobRequest tag q s) := by
  unfold cancelJobRequest
  refine .ite (fun _ => answer_holdsKept ..) fun _ => ?_
  split
  · exact answer_holdsKept ..
  · have told (u : State) (c : Fin 4) (b : Body) :
        HoldsKept u (((u.testJobEnd c).answer 14 tag .ok b).restoreEndStep c) :=
      ((answer_holdsKept ..).after (testJobEnd_holdsKept ..)).trans (restoreEndStep_holdsKept ..)
    split
    · exact freeAnswerEvaluate_holdsKept ..
    · exact (told ..).after (.of_changes (by decide) (putContext_changes ..))
    · exact told ..

theorem copiedRequest_holdsKept (tag : Nat) (q : CopiedReq) (s : State) :
    HoldsKept s (copiedRequest tag q s) := by
  unfold copiedRequest
  refine .ite (fun _ => answer_holdsKept ..) fun _ => ?_
  split
  · exact answer_holdsKept ..
  split
  · exact answer_holdsKept ..
  · refine .ite (fun _ => answer_holdsKept ..) fun _ => ?_
    refine (HoldsKept.thenIf (.trans (.trans (.trans ?_ (testJobEnd_holdsKept ..))
      (answer_holdsKept ..)) (restoreEndStep_holdsKept ..)) (placeCopies_holdsKept _)).trans
      (issueIfFreed_holdsKept ..)
    exact .thenIf (.of_changes (by decide) (putContext_changes ..))
      ((appendCurrent_holdsKept ..).after (.of_changes (by decide) (chargeRestore_changes ..)))

/-! ### Requests of the catalogue and of the duplication -/

theorem cutVolume_holdsKept (s : State) (i : Fin 8) (v : Volume) (epoch : Nat) :
    HoldsKept s (s.cutVolume i v epoch) := by
  have moved : HoldsKept s (match v.sendEpoch with
      | some e => (s.takeRef i epoch).giveRef i e
      | none => s.takeRef i epoch) := by
    split
    · exact (takeRef_holdsKept ..).trans (giveRef_holdsKept ..)
    · exact takeRef_holdsKept ..
  exact ((moved.trans (putVol_holdsKept ..)).trans
    (.of_changes (by decide) (setPool_changes ..))).trans (testEnd_holdsKept ..)

theorem snapshotRequest_holdsKept (tag : Nat) (q : SnapshotReq) (h : RetentionOk s) :
    HoldsKept s (snapshotRequest tag q s) := by
  unfold snapshotRequest
  split
  · exact answer_holdsKept ..
  refine .ite (fun _ => answer_holdsKept ..) fun _ => ?_
  split
  · exact answer_holdsKept ..
  rename_i i v volume
  split
  · exact answer_holdsKept ..
  · refine .ite (fun _ => ?_) fun _ =>
      (makeSnapshot_holdsKept h (findVol_some volume)).trans (answer_holdsKept ..)
    exact (HoldsKept.thenIf ((((makeSnapshot_holdsKept h (findVol_some volume)).trans
      (cutVolume_holdsKept ..)).trans (answer_holdsKept ..)).trans (dupEndStep_holdsKept ..))
      (evaluateIfOver_holdsKept ..)).trans (issuePass_holdsKept _)

/-- DELETE_SNAPSHOT takes only a snapshot that is not held (R79). -/
theorem deleteRequest_holdsKept (tag : Nat) (q : DeleteReq) (s : State) :
    HoldsKept s (deleteRequest tag q s) := by
  unfold deleteRequest
  refine .ite (fun _ => answer_holdsKept ..) fun _ => ?_
  split
  · exact answer_holdsKept ..
  rename_i i v volume
  split
  · exact answer_holdsKept ..
  rename_i x snap
  exact .ite (fun deletable => (deletionStep_holdsKept (findVol_some volume) snap
    (deletable_iff.mp deletable).1).trans (answer_holdsKept ..)) fun _ => answer_holdsKept ..

/-- A mark that is not the hold (R93). -/
theorem markRequest_holdsKept {kind : Nat} {locked : State → Bool} {read : Snapshot → Bool}
    {write : Snapshot → Bool → Snapshot} (same : ∀ z b, holdMark (write z b) = holdMark z)
    (tag : Nat) (q : MarkReq) (s : State) :
    HoldsKept s (markRequest kind locked read write tag q s) := by
  unfold markRequest
  refine .ite (fun _ => answer_holdsKept ..) fun _ => ?_
  split
  · exact answer_holdsKept ..
  split
  · exact answer_holdsKept ..
  · exact .ite (fun _ => answer_holdsKept ..) fun _ =>
      .thenIf ((modifySnap_holdsKept fun z => same z _).trans (answer_holdsKept ..))
        (evaluateIfOver_holdsKept ..)

/-- A mark whose lock is shut is not written (R92). -/
theorem markRequest_locked_holdsKept {kind : Nat} {locked : State → Bool} {read : Snapshot → Bool}
    {write : Snapshot → Bool → Snapshot} (shut : locked s = true) (tag : Nat) (q : MarkReq) :
    HoldsKept s (markRequest kind locked read write tag q s) := by
  unfold markRequest
  refine .ite (fun _ => answer_holdsKept ..) fun _ => ?_
  split
  · exact answer_holdsKept ..
  split
  · exact answer_holdsKept ..
  · exact .ite (fun _ => answer_holdsKept ..) fun unlocked => absurd shut unlocked

theorem sentRequest_holdsKept (tag : Nat) (q : SentReq) (s : State) :
    HoldsKept s (sentRequest tag q s) := by
  unfold sentRequest
  refine .ite (fun _ => answer_holdsKept ..) fun _ => ?_
  split
  · exact answer_holdsKept ..
  · exact ((((((answerTicket_holdsKept ..).trans (answer_holdsKept ..)).trans
      (testEnd_holdsKept ..)).trans (dupEndStep_holdsKept ..)).trans
      (closeIfDone_holdsKept _)).trans (flushEvent_holdsKept _)).trans (issuePass_holdsKept _)

theorem duplicateNowRequest_holdsKept (tag volume : Nat) (s : State) :
    HoldsKept s (duplicateNowRequest tag volume s) := by
  unfold duplicateNowRequest
  refine .ite (fun _ => answer_holdsKept ..) fun _ => ?_
  split
  · exact answer_holdsKept ..
  · exact .ite (fun _ => answer_holdsKept ..) fun _ => .ite (fun _ => answer_holdsKept ..) fun _ =>
      ((putVol_holdsKept ..).trans (answer_holdsKept ..)).trans (placeCuts_holdsKept _)

/-- The minute set, and what the window does then. -/
theorem minuteSet_holdsKept (s : State) (minute next : Nat) :
    HoldsKept s ((s.setMinute minute next).minuteChanged minute) :=
  (minuteChanged_holdsKept ..).after (.of_changes (by decide) (setTime_changes ..))

theorem clockRequest_holdsKept (tag minute : Nat) (s : State) :
    HoldsKept s (clockRequest tag minute s) :=
  .ite (fun _ => answer_holdsKept ..) fun _ =>
    ((minuteSet_holdsKept ..).trans (answer_holdsKept ..)).trans (afterMinute_holdsKept _)

theorem amendVolume_holdsKept (tag : Nat) (q : AmendReq) (f : AmendField) (s : State) :
    HoldsKept s (amendVolume tag q f s) := by
  unfold amendVolume
  split
  · refine .ite (fun _ => answer_holdsKept ..) fun _ => ?_
    split
    · exact answer_holdsKept ..
    · exact .ite (fun _ => .ite (fun _ => answer_holdsKept ..) fun _ => .thenIf
        ((putVol_holdsKept ..).trans (answer_holdsKept ..)) (evaluate_holdsKept ..)) fun _ =>
        answer_holdsKept ..
  · exact answer_holdsKept ..

theorem amendSnapshot_holdsKept (tag : Nat) (q : AmendReq) (s : State) :
    HoldsKept s (amendSnapshot tag q s) := by
  unfold amendSnapshot
  refine .ite (fun _ => answer_holdsKept ..) fun _ => ?_
  split
  · exact answer_holdsKept ..
  split
  · exact answer_holdsKept ..
  · refine .ite (fun _ => (modifySnap_holdsKept ?_).trans (answer_holdsKept ..)) fun _ =>
      answer_holdsKept ..
    exact fun _ => rfl

theorem amendRequest_holdsKept (tag : Nat) (q : AmendReq) (s : State) :
    HoldsKept s (amendRequest tag q s) := by
  unfold amendRequest
  refine .ite (fun _ => answer_holdsKept ..) fun _ => ?_
  split
  · exact answer_holdsKept ..
  · exact .of_changes (by decide) (amendOwner_changes ..)
  · exact .of_changes (by decide) (amendOwner_changes ..)
  · exact amendSnapshot_holdsKept ..
  · exact amendVolume_holdsKept ..

/-! ### Every command -/

theorem released_holdsKept {f : State → State} (rule : HoldsKept s (f s))
    (h : whenReleased s f = .next t) : HoldsKept s t :=
  whenReleased_keeps (P := HoldsKept s) rule h (.refl s)

/-- A request's command by its rule on the state that has lost the request. -/
theorem taken_holdsKept {α : Type} {kind : Nat} {parse : Bytes → Option α} {blank : Body}
    {carry : Nat → α → State → State} (rule : ∀ tag q, HoldsKept s.dropHead (carry tag q s.dropHead))
    (h : whenReleased s (takeRequest kind parse blank carry) = .next t) : HoldsKept s t := by
  obtain port | ⟨tag, q, -, rfl⟩ := request_cases h
  · exact .of_changes (by decide) port
  · exact (rule tag q).after (.of_changes (by decide) (dropHead_changes s))

theorem read_holdsKept {clocked : Nat} (h : execRead clocked s = .next t) : HoldsKept s t := by
  have shifted (more : Bytes) : HoldsKept s (s.shiftStatus more) :=
    .of_changes (by decide) (shiftStatus_changes ..)
  refine released_holdsKept ?_ h
  refine .ite (fun _ => shifted _) fun _ => ?_
  split
  · exact shifted _
  · exact .ite (fun _ => .thenIf ((shifted _).trans (.of_changes (by decide) (setPort_changes ..)))
      (roomArrives_holdsKept _)) fun _ => shifted _

theorem announceTimer_holdsKept (h : execAnnounceTimerExpiry s = .next t) : HoldsKept s t := by
  refine released_holdsKept ?_ h
  split
  · exact .refl s
  · rename_i d _
    refine .ite (fun _ => ?_) fun _ => .refl s
    have shared : HoldsKept s (s.setLink { s.link with
        announceNext := some (d + secondsMs s.cfg.announceInterval) }).recomputeShare :=
      .trans (.of_changes (by decide) (setLink_changes ..))
        (.of_changes (by decide) (recomputeShare_changes _))
    exact (((shared.trans (testAtRisk_holdsKept _)).trans (flushEvent_holdsKept _)).trans
      (issuePass_holdsKept _)).trans (.of_changes (by decide) (announceSlots_changes _))

/-- In SERVING with a CLOSED lock only a reset touches the holds (R91, R102). -/
theorem exec_holdsKept {c : Instr} (counted : RetentionOk s) (part : s.part = .serving)
    (closed : s.cat.lock = .closed) (power : ∀ n m, c ≠ .powerOnReset n m) (restart : c ≠ .restart)
    (h : exec c s = .next t) : HoldsKept s t := by
  by_cases modes : changesModes c = true
  · exact .of_changes (by decide) (closed_changesModes modes part closed power restart h)
  by_cases framed : ∃ l, mayChange c = some l ∧ Block.cat ∉ l
  · obtain ⟨l, hl, hp⟩ := framed
    exact .of_changes hp (exec_changes c hl h)
  cases c <;> simp only [exec] at h
  case rstAsserted => cases h; exact .of_snaps rfl
  case read => exact read_holdsKept h
  case commit => exact taken_holdsKept (fun _ _ => commitRequest_holdsKept ..) h
  case release => exact taken_holdsKept (fun _ _ => releaseRequest_holdsKept ..) h
  case snapshot =>
    refine taken_holdsKept (fun tag q => snapshotRequest_holdsKept tag q ?_) h
    exact retention_of_changes (by decide) (dropHead_changes s) counted
  case deleteSnapshot => exact taken_holdsKept (fun _ _ => deleteRequest_holdsKept ..) h
  case expiryWaitingEvaluation => exact released_holdsKept (evaluateWaiting_holdsKept s) h
  case hold =>
    refine taken_holdsKept (fun tag q => ?_) h
    refine markRequest_locked_holdsKept ?_ tag q
    exact beq_iff_eq.mpr closed
  case pin =>
    refine taken_holdsKept (fun tag q => ?_) h
    refine markRequest_holdsKept ?_ tag q _
    exact fun _ _ => rfl
  case restoreOpen => exact taken_holdsKept (fun _ _ => openRequest_holdsKept ..) h
  case restoreItem => exact taken_holdsKept (fun _ _ => itemRequest_holdsKept ..) h
  case restoreGo => exact taken_holdsKept (fun _ _ => goRequest_holdsKept ..) h
  case restoreCancel => exact taken_holdsKept (fun _ _ => cancelJobRequest_holdsKept ..) h
  case copied => exact taken_holdsKept (fun _ _ => copiedRequest_holdsKept ..) h
  case assemblyTimeout => exact released_holdsKept (assemblyTimeout_holdsKept ..) h
  case restoreEndStep => exact released_holdsKept (restoreEndStep_holdsKept ..) h
  case sent => exact taken_holdsKept (fun _ _ => sentRequest_holdsKept ..) h
  case duplicateNow => exact taken_holdsKept (fun _ _ => duplicateNowRequest_holdsKept ..) h
  case clock => exact taken_holdsKept (fun _ _ => clockRequest_holdsKept ..) h
  case minuteAdvance =>
    refine released_holdsKept ?_ h
    split
    · exact .ite (fun _ => (minuteSet_holdsKept ..).trans (afterMinute_holdsKept _)) fun _ =>
        .refl s
    · exact .refl s
  case windowClosed =>
    exact released_holdsKept ((closeIfDone_holdsKept s).trans (flushEvent_holdsKept _)) h
  case cutNotice => exact released_holdsKept (placeCuts_holdsKept s) h
  case cutTimeout =>
    refine released_holdsKept ?_ h
    split
    · exact .refl s
    · exact .ite (fun _ => (flushEvent_holdsKept _).after (.of_snaps rfl)) fun _ => .refl s
  case issuePass => exact released_holdsKept (issuePass_holdsKept s) h
  case tokenGain =>
    refine released_holdsKept ?_ h
    exact .ite (fun _ => (issuePass_holdsKept _).after (.of_snaps rfl)) fun _ => .refl s
  case dupEndStep => exact released_holdsKept (dupEndStep_holdsKept ..) h
  case amend => exact taken_holdsKept (fun _ _ => amendRequest_holdsKept ..) h
  case loadVolume | loadSnapshot =>
    exact .of_changes (by decide) (request_unserved (by rw [part]; rfl) h)
  case announceTimerExpiry => exact announceTimer_holdsKept h
  case powerOnReset | configCheck | restart | loadDone | lockHolds => exact absurd rfl modes
  all_goals exact absurd ⟨_, rfl, by decide⟩ framed

/-- A snapshot is held under its volume and epoch. -/
theorem mem_heldMarks {i : Fin 8} {e : Nat} :
    { slot := i, epoch := e, held := true } ∈ heldMarks (holdMarks s) ↔
      ∃ x ∈ s.cat.snaps, x.slot = i ∧ x.epoch = e ∧ x.hold = true := by
  simp [heldMarks, holdMarks, holdMark]

/-- Settles O21: the lock stands, and the marks of the held snapshots are the same. -/
theorem closedLockKeepsEveryHold : Obligations.ClosedLockKeepsEveryHold := by
  intro c s t counted part closed power restart h
  have retention : RetentionOk s := retainedCounted_iff.mp counted
  have distinct : MarksDistinct (holdMarks s) :=
    List.pairwise_map.mpr (List.pairwise_map.mp retention.distinct)
  have same := ((exec_holdsKept retention part closed power restart h).keeps distinct).2
  refine ⟨closed_stands part closed power restart h, fun x hx held => ?_, fun y hy held => ?_⟩
  · exact mem_heldMarks.mp (same ▸ mem_heldMarks.mpr ⟨x, hx, rfl, rfl, held⟩)
  · exact mem_heldMarks.mp (same ▸ mem_heldMarks.mpr ⟨y, hy, rfl, rfl, held⟩)

end Sys2Proof.Proofs

/-! PROOFS. HOLD and PIN (R81, R92, R93): settles O19. -/

namespace Sys2Proof.Proofs

open Sys2Proof.Machine Sys2Proof.Safety

section Mark

variable {s : State} {r : Bytes} {q : MarkReq} {i : Fin 8} {v : Volume} {x : Snapshot} {kind : Nat}
  {locked : State → Bool} {read : Snapshot → Bool} {write : Snapshot → Bool → Snapshot} {c : Instr}

/-- The mark written, and the completion with the marks after the request. -/
def markWritten (kind : Nat) (write : Snapshot → Bool → Snapshot) (tag : Nat) (q : MarkReq) (i : Fin 8)
    (x : Snapshot) (s : State) : State :=
  (s.modifySnap i q.epoch fun y => write y (q.action == 0)).answer kind tag .ok
    (write x (q.action == 0)).marksBody

/-- A request of known form for a snapshot that stands goes by its lock. -/
theorem markRequest_found (volume : q.volume ≠ 0) (action : q.action ≤ 1)
    (found : s.findVol q.volume = some (i, v)) (snap : s.findSnap i q.epoch = some x) (tag : Nat) :
    markRequest kind locked read write tag q s =
      if locked s then s.answer kind tag .locked (.marks)
      else if read x && !(q.action == 0) then (markWritten kind write tag q i x s).evaluateIfOver i
      else markWritten kind write tag q i x s := by
  unfold markRequest
  rw [if_neg (not_or.mpr ⟨volume, Nat.not_lt.mpr action⟩), found]
  dsimp only
  rw [snap]
  rfl

theorem markWritten_cat (tag : Nat) : (markWritten kind write tag q i x s).cat = { s.cat with
    snaps := s.cat.snaps.map fun y =>
      if y.slot = i ∧ y.epoch = q.epoch then write y (q.action == 0) else y } := cat_answer ..

/-- A request that the lock lets pass: its mark and its completion stand in front of the evaluation
that a cleared mark starts on a volume over its limit (R81). -/
theorem mark_passes (rule : exec c s = whenReleased s (takeRequest kind parseMark (.marks)
      (markRequest kind locked read write)))
    (takes : Takes s kind r) (parsed : parseMark r = some q) (volume : q.volume ≠ 0)
    (action : q.action ≤ 1) (found : s.findVol q.volume = some (i, v))
    (snap : s.findSnap i q.epoch = some x) (passes : locked s.dropHead = false) :
    ∃ t, exec c s = .next t ∧
      Answered s t (reply kind (recordTag r) .ok (write x (q.action == 0)).marksBody) ∧
      ((q.action = 0 ∨ read x = false ∨ v.overLimit = false) → t.cat = { s.cat with
        snaps := s.cat.snaps.map fun y =>
          if y.slot = i ∧ y.epoch = q.epoch then write y (q.action == 0) else y }) ∧
      ChangesOnly [.cat, .port] s t := by
  let t := markWritten kind write (recordTag r) q i x s.dropHead
  have run := rule.trans (whenReleased_taken takes parsed)
  rw [markRequest_found (s := s.dropHead) volume action found snap,
    if_neg (by rw [passes]; decide)] at run
  have writing := modifySnap_changes s.dropHead i q.epoch fun y => write y (q.action == 0)
  have quiet : Quiet s.dropHead (s.dropHead.modifySnap i q.epoch fun y =>
      write y (q.action == 0)) := .of_changes writing (by decide)
  have changes : ChangesOnly [.cat, .port] s t :=
    andThen (by decide) (andThen (by decide) (within (by decide) (dropHead_changes s)) writing)
      (answer_changes ..)
  by_cases cleared : (read x && !(q.action == 0)) = true
  · rw [if_pos cleared] at run
    refine ⟨_, run, answered_of_quiet quiet (evaluateIfOver_grows ..), fun stays => ?_,
      changes.trans (evaluateIfOver_changes ..)⟩
    obtain ⟨was, unset⟩ := Bool.and_eq_true_iff.mp cleared
    have within : v.overLimit = false := by
      rcases stays with set | none | within
      · simp [set] at unset
      · exact absurd (was.symm.trans none) (by decide)
      · exact within
    have stands : t.vol i = some v := (vol_of_changes (by decide) (answer_changes ..) i).trans
      (findVol_some found)
    rw [evaluateIfOver_within stands within]
    exact markWritten_cat ..
  · rw [if_neg cleared] at run
    exact ⟨_, run, answered_alone quiet, fun _ => markWritten_cat .., changes⟩

/-- Settles O19: HOLD by the lock, PIN without it. -/
theorem holdAndPinSetTheirMarks : Obligations.HoldAndPinSetTheirMarks := by
  intro s r q i v x parsed volume action found snap set
  refine ⟨fun takes => ⟨fun closed => ?_, fun other => ?_⟩, fun takes => ?_⟩
  · refine refused_taken rfl takes parsed ?_
    exact (markRequest_found (s := s.dropHead) volume action found snap _).trans
      (if_pos (beq_iff_eq.mpr closed))
  · refine mark_passes (c := .hold) (locked := fun s => s.cat.lock == .closed) (read := (·.hold))
      (write := fun x b => { x with hold := b }) rfl takes parsed volume action found snap ?_
    exact beq_eq_false_iff_ne.mpr other
  · exact mark_passes (c := .pin) (locked := fun _ => false) (read := (·.pin))
      (write := fun x b => { x with pin := b }) rfl takes parsed volume action found snap rfl

end Mark

end Sys2Proof.Proofs

/-! PROOFS. RESTORE_OPEN (R94, R95, R106, R107): settles O22. -/

namespace Sys2Proof.Proofs

open Sys2Proof.Machine Sys2Proof.Safety

section RestoreOpen

variable {s : State} {q : OpenReq} {i j : Fin 8} {v w : Volume} {x : Snapshot} {c : Fin 4}

theorem mem_slots4 (c : Fin 4) : c ∈ slots4 := by revert c; decide

/-- The fields of a RESTORE_OPEN are in form (R106). -/
structure OpenFormed (q : OpenReq) : Prop where
  owner : invalidOwner q.owner = false
  source : q.source ≠ 0
  target : q.target ≠ 0
  items : 1 ≤ q.k ∧ q.k ≤ 32

/-- A context filled in, with the reference that it takes and its completion. -/
def contextOpened (tag : Nat) (q : OpenReq) (i j : Fin 8) (c : Fin 4) (s : State) : State :=
  let x := s.newContext q i j
  let t := (s.putContext c (some x)).takeRef i q.epoch
  (t.setRsc { t.rsc with jobCounter := x.job }).answer 11 tag
    (if x.tracked then .ok else .untracked) (.restoreOpen c x.job x.deadline)

/-- A request in form for volumes and a snapshot that stand goes by the lowest FREE context. -/
theorem openRequest_found (formed : OpenFormed q) (source : s.findVol q.source = some (i, v))
    (target : s.findVol q.target = some (j, w)) (snap : s.findSnap i q.epoch = some x) (tag : Nat) :
    openRequest tag q s =
      ((slots4.find? fun c => (s.context c).isNone).elim
        (s.answer 11 tag .full (.restoreOpen)) fun c => contextOpened tag q i j c s) := by
  obtain ⟨owner, sourceId, targetId, one, most⟩ := formed
  have wellFormed : ¬(invalidOwner q.owner = true ∨ q.source = 0 ∨ q.target = 0 ∨ q.k = 0 ∨
      32 < q.k) := by
    rw [owner]
    simp only [Bool.false_eq_true, sourceId, targetId, false_or]
    omega
  unfold openRequest
  rw [if_neg wellFormed, source, target]
  dsimp only
  rw [if_neg (by simp [snap])]
  split
  · rename_i none
    rw [none]
    rfl
  · rename_i c free
    rw [free]
    rfl

theorem openRequest_full (formed : OpenFormed q) (source : s.findVol q.source = some (i, v))
    (target : s.findVol q.target = some (j, w)) (snap : s.findSnap i q.epoch = some x)
    (full : ∀ c, (s.context c).isSome = true) (tag : Nat) :
    openRequest tag q s = s.answer 11 tag .full (.restoreOpen) := by
  have none : (slots4.find? fun c => (s.context c).isNone) = none :=
    List.find?_eq_none.mpr fun c _ => by simp [← Option.not_isSome, full c]
  rw [openRequest_found formed source target snap, none]
  rfl

theorem openRequest_opens (formed : OpenFormed q) (source : s.findVol q.source = some (i, v))
    (target : s.findVol q.target = some (j, w)) (snap : s.findSnap i q.epoch = some x)
    (free : s.context c = none) (lowest : ∀ d, d < c → (s.context d).isSome = true) (tag : Nat) :
    openRequest tag q s = contextOpened tag q i j c s := by
  have first : (slots4.find? fun c => (s.context c).isNone) = some c :=
    find?_first (by decide) (mem_slots4 c) (by simp [free]) fun d hd => by
      simp [← Option.not_isSome, lowest d hd]
  rw [openRequest_found formed source target snap, first]
  rfl

/-- Settles O22: by whether a context is FREE. -/
theorem restoreOpenFillsAContext : Obligations.RestoreOpenFillsAContext := by
  intro s r q i j v w x takes parsed owner sourceId targetId one most source target snap
  have formed : OpenFormed q := ⟨owner, sourceId, targetId, one, most⟩
  refine ⟨fun full => refused_taken rfl takes parsed
    (openRequest_full (s := s.dropHead) formed source target snap full _), ?_⟩
  intro c free lowest job deadline tracked
  have run : exec .restoreOpen s = .next (contextOpened (recordTag r) q i j c s.dropHead) :=
    (whenReleased_taken takes parsed).trans (congrArg _
      (openRequest_opens (s := s.dropHead) formed source target snap free lowest _))
  let y := s.dropHead.newContext q i j
  let taken := (s.dropHead.putContext c (some y)).takeRef i q.epoch
  let counted := taken.setRsc { taken.rsc with jobCounter := y.job }
  have opening : ChangesOnly [.rsc, .cat] s.dropHead counted :=
    andThen (by decide) (andThen (by decide) (within (by decide) (putContext_changes ..))
      (takeRef_changes ..)) (setRsc_changes ..)
  have answering : ChangesOnly [.port] counted (contextOpened (recordTag r) q i j c s.dropHead) :=
    answer_changes ..
  have rsc := answering.2 .rsc (by decide)
  have cat := answering.2 .cat (by decide)
  refine ⟨_, run, rsc, cat, answered_alone (.of_changes opening (by decide)), ?_⟩
  exact andThen (by decide) (andThen (by decide) (within (by decide) (dropHead_changes s)) opening)
    answering

end RestoreOpen

end Sys2Proof.Proofs

/-! PROOFS. The end step of a duplication (R97, R153): settles O38. -/

namespace Sys2Proof.Proofs

open Sys2Proof.Machine Sys2Proof.Safety

section DupEnd

variable {s : State} {i : Fin 8} {v : Volume}

/-- A send list is in SCAN mode (R125). -/
def scanning : SendList → Bool
  | .extents _ => false
  | .scan _ => true

/-- The record of a volume whose duplication has ended: the sent epoch is its base (R97, R153). -/
def endedVolume (v : Volume) : Volume :=
  { v with base := v.sendEpoch, sendEpoch := none, dup := .done, endDue := false,
           send := .extents v.send.entries }

/-- The reference of the old base given back (R97). -/
def baseReturned (s : State) (i : Fin 8) (v : Volume) : State :=
  match v.base with
  | some b => s.giveRef i b
  | none => s

/-- The end told by its DUP_END notice, before what follows it. -/
def endTold (s : State) (i : Fin 8) (v : Volume) : State :=
  ((baseReturned s i v).putVol i (some (endedVolume v))).notice 6
    (.dupEnd v.id (v.sendEpoch.getD 0) (scanning v.send) v.failures)

theorem dupEndStep_run (found : s.vol i = some v) (due : v.endDue = true) (room : s.room = true) :
    s.dupEndStep i = ((endTold s i v).evaluateIfOver i).closeIfDone.flushEvent := by
  have list : (if scanning v.send then .extents [] else v.send) = .extents v.send.entries := by
    cases v.send <;> rfl
  unfold State.dupEndStep endTold endedVolume
  rw [found, ← list]
  exact if_pos ⟨due, room⟩

theorem endTold_vol (s : State) (i : Fin 8) (v : Volume) :
    (endTold s i v).vol i = some (endedVolume v) := vol_putVol_self ..

/-- What follows an end places notices alone behind DUP_END. -/
theorem endTold_places (s : State) (i : Fin 8) (v : Volume) :
    Places s ((endTold s i v).evaluateIfOver i).closeIfDone.flushEvent
      (noticeOf 6 (.dupEnd v.id (v.sendEpoch.getD 0) (scanning v.send) v.failures)) := by
  have returned : (baseReturned s i v).port = s.port := by
    unfold baseReturned
    split <;> rfl
  refine Grows.places (.trans (.of_port_eq ?_) (((evaluateIfOver_grows ..).trans
    (closeIfDone_grows _)).trans (flushEvent_grows _)))
  show ((baseReturned s i v).place _).port = (s.place _).port
  unfold State.place
  rw [returned]
  rfl

theorem evaluateIfOver_lasting (found : s.vol i = some v) :
    ∃ w, (s.evaluateIfOver i).vol i = some w ∧ lasting w = lasting v := by
  unfold State.evaluateIfOver
  rw [found]
  exact ite_keeps (P := fun u => ∃ w, u.vol i = some w ∧ lasting w = lasting v)
    (fun _ => evaluate_vol found i) fun _ => ⟨v, found, rfl⟩

/-- The volume behind its end: the evaluation and the close of the window leave what it wrote. -/
theorem dupEndStep_vol (found : s.vol i = some v) (due : v.endDue = true) (room : s.room = true) :
    ∃ w, (s.dupEndStep i).vol i = some w ∧ lasting w = lasting (endedVolume v) := by
  obtain ⟨w, here, same⟩ := evaluateIfOver_lasting (endTold_vol s i v)
  have dup : w.dup = .done := congrArg Volume.dup same
  refine ⟨w, ?_, same⟩
  rw [dupEndStep_run found due room, vol_of_changes (by decide) (flushEvent_changes _)]
  exact closeIfDone_vol here (by rw [dup]; decide)

/-- Settles O38: the end step of a volume whose end is due, with notice room and without. -/
theorem duplicationEndMovesTheBase : Obligations.DuplicationEndMovesTheBase := by
  intro s i v released found
  have run : exec (.dupEndStep i) s = .next (s.dupEndStep i) :=
    exec_released (f := fun s => s.dupEndStep i) rfl released
  refine ⟨fun waits => ?_, fun room due => ?_⟩
  · rw [run, dupEndStep_waits found waits.symm]
  · obtain ⟨w, here, same⟩ := dupEndStep_vol found due room
    have send := congrArg Volume.send same
    have entries := congrArg SendList.entries send
    have places := endTold_places s i v
    rw [← dupEndStep_run found due room] at places
    exact ⟨_, w, run, here, congrArg Volume.dup same, congrArg Volume.base same,
      congrArg Volume.sendEpoch same, congrArg Volume.endDue same,
      entries, places, dupEndStep_changes s i⟩

end DupEnd

end Sys2Proof.Proofs
